-- ==== Sys2Proof/Word.lean ====
section
/-! DEFINITION. The word types of the FC-2: bytes and little-endian fields of host records, register words, host
addresses and Timebase values. -/

namespace Sys2Proof

/-- One byte of a host record or of a buffer. -/
abbrev Byte := BitVec 8

/-- A two-byte field: a sensor register value, a window coordinate, a line number. -/
abbrev Half := BitVec 16

/-- A four-byte field: a register of the register window, a tag, a settings generation. -/
abbrev Word := BitVec 32

/-- A host memory byte address (00, Conventions). -/
abbrev Addr := BitVec 64

/-- A value of the Timebase, in microseconds (R53). -/
abbrev Stamp := BitVec 64

end Sys2Proof
end

