-- ==== Sys2Proof/Config.lean ====
section
/-! DEFINITION. The fixed figures of the FC-2 and the free values: what the spec leaves open after a step is an opaque
constant here, which no proof can evaluate. -/

namespace Sys2Proof.Config

/-- Entries of the Capture Queue (R10). -/
def queueDepth : Nat := 4

/-- Most entries of the Buffer Cache (R92). -/
def cacheDepth : Nat := 32

/-- Most entries of the Staged Settings List (R114). -/
def stagedDepth : Nat := 32

/-- Sensor register addresses (section 6.1). -/
def sensorAddresses : Nat := 512

/-- Bytes of the Output Store (R100). -/
def storeBytes : Nat := 131072

/-- Largest byte size of a window that WINDOW_SET accepts, and largest buffer (R59, R91). -/
def maxWindowBytes : Nat := 16777216

/-- Smallest buffer (R91). -/
def minBufferBytes : Nat := 64

/-- Acknowledge timer of the sensor port: 2 ms (R109). -/
def ackMicros : Nat := 2000

/-- How long a new level holds at the TRIGGER pin before the filter takes it (R185). -/
def filterMicros : Nat := 1

/-- Longest wait for the data of a host read: 50 ms (R154). -/
def hostReadMicros : Nat := 50000

/-- Exposure of a SHORT_LEVEL frame (R40). -/
def shortLevelMicros : Nat := 10

/-- Where the saturating counts stop (R10, R27, R76). -/
def countLimit : Nat := 65535

/-- Most entries of the Control and Capture Rings (Table 58). -/
def maxRequestRing : Nat := 1024

/-- Most entries of the Buffer Ring (Table 58). -/
def maxBufferRing : Nat := 4096

/-- FREE VALUE. How many bytes of a slice write stood on the Host Link when a halt or a reset cut it off: R107 and R180
say that bytes already issued stand and that no further byte is issued, and give no number. The n-th cut-off write takes
`cutOffBytes n`, reduced below the slice's size. Entry 6 of the log. -/
opaque cutOffBytes : Nat → Nat

/-- FREE VALUE. Whether context 0 takes the n-th power-off notice before context 1: the spec gives both contexts their
effect at the notice and no order between them (R51), and the order decides which close is the first one of R15.
Entry 7 of the log. -/
opaque noticeZeroFirst : Nat → Bool

end Sys2Proof.Config
end

