-- ==== Sys2Proof/Syntax.lean ====
section
/-! DEFINITION. The commands of the FC-2: one constructor of `Instr` for each row of spec/opcode_table.json, with the
operands the row's rule gives it. A command is one whole step of the part (spec/95_what_each_step_holds.md). -/

namespace Sys2Proof

/-- The level of the TRIGGER input (R34). -/
inductive Level where
  | low
  | high
deriving DecidableEq, Repr

/-- The two Frame Contexts (R27). -/
inductive CtxId where
  | c0
  | c1
deriving DecidableEq, Repr

/-- The three submission rings (R145). -/
inductive RingId where
  | control
  | capture
  | buffer
deriving DecidableEq, Repr

/-- A host read of the part: of the Setup Block or of a ring (R154). -/
inductive HostRead where
  | setup
  | ring (r : RingId)
deriving DecidableEq, Repr

/-- What a failing host read receives other than silence (R154). -/
inductive ReadError where
  | unsupported
  | aborted
  | poisoned
deriving DecidableEq, Repr

/-- Output format of a window (Table 21). -/
inductive PixelFormat where
  | native
  | top8
deriving DecidableEq, Repr

/-- The eight definition fields of a WINDOW_SET and of a DEFINED window (Table 21, Table 51). -/
structure WindowDef where
  x : Half
  y : Half
  width : Half
  height : Half
  skipX : Half
  skipY : Half
  mosaic : Bool
  format : PixelFormat
deriving DecidableEq, Repr

/-- The mode of a STOP (section 1.5). -/
inductive StopKind where
  | graceful
  | abort
deriving DecidableEq, Repr

/-- The two words of SETUP_ADDR (R146). -/
inductive AddrHalf where
  | lo
  | hi
deriving DecidableEq, Repr

/-- What TRIGGER_TRANSITION brings to the TRIGGER filter (R185): the level at the pin changes, or the new level has held for
1 µs and the filtered transition occurs (DESIGN CHOICE, log entry 4). -/
inductive TriggerStep where
  | pin (level : Level)
  | held
deriving DecidableEq, Repr

/-- The commands, in the order of spec/opcode_table.json. The reset commands carry the level at the TRIGGER pin at the
reset (R185). The commands that end a host read carry the bytes read (R182); the control-record commands carry the
fields that Table 76 gives the record read. -/
inductive Instr where
  | powerOn (pin : Level)
  | functionReset (pin : Level)
  | partReset (enable : Bool) (pin : Level)
  | enableSet
  | enableClear
  | intCauseWrite (value : Word)
  | intMaskWrite (value : Word)
  | msiEnableWrite (enabled : Bool)
  | setupAddrWrite (half : AddrHalf) (value : Word)
  | tailWrite (ring : RingId) (value : Word)
  | cplHeadWrite (value : Word)
  | registerWriteOther (offset : BitVec 12) (width : Nat) (value : Word)
  | setupReadDone (data : List Byte)
  | setupReadError (reason : ReadError)
  | hostReadTimeout (read : HostRead)
  | fetchReadError (ring : RingId) (reason : ReadError)
  | drainFinish
  | creditGrant
  | captureRecordRead (data : List Byte)
  | bufferEntryRead (data : List Byte)
  | mark (tag : Word)
  | badRecord (kind : Byte) (tag : Word)
  | windowSet (tag : Word) (number : Half) (window : WindowDef)
  | windowClear (tag : Word) (number : Half)
  | orderSet (tag : Word) (values : List Byte)
  | sensorWriteNow (tag : Word) (address : Half) (value : Half)
  | sensorWriteStaged (tag : Word) (address : Half) (value : Half)
  | sensorRead (tag : Word) (address : Half)
  | sensorPowerOff (tag : Word) (replay : Bool)
  | sensorPowerOn (tag : Word) (replay : Bool)
  | sensorPowerCycle (tag : Word) (replay : Bool)
  | flushStaged (tag : Word)
  | discardStaged (tag : Word)
  | stopTag (tag : Word) (request : Word) (mode : StopKind)
  | stopAll (tag : Word) (request : Word) (mode : StopKind)
  | frameBegin
  | triggerTransition (step : TriggerStep)
  | intervalTick
  | triggerTimeoutExpiry (ctx : CtxId)
  | leadExpiry (ctx : CtxId)
  | exposureTimerExpiry (ctx : CtxId)
  | frameStart (number : Byte)
  | line (number : Half) (pixels : List Half) (check : Half)
  | frameEnd (count : Half)
  | unknownPacket
  | frameTimerExpiry
  | sliceOffer
  | sliceWriteDone
  | framePost (ctx : CtxId)
  | requestEnd
  | coalescingTimerExpiry
  | sensorAck (value : Half)
  | ackTimeout
  | settleTimerExpiry
  | sensorPowerBadField (tag : Word) (action : Byte)
deriving DecidableEq, Repr

end Sys2Proof
end

