-- ==== Sys2Proof/Machine/State.lean ====
section
/-! DEFINITION. The state of the FC-2, block by block as Table 2 names them, as plain data, and its value after reset.
Every field names the rule that gives it; the fields that are the model's own say so. -/

namespace Sys2Proof.Machine

open Sys2Proof

/-- A running timer: the Timebase value at which it was started and its duration in microseconds (R54). -/
structure Timer where
  started : Stamp
  duration : Nat
deriving DecidableEq, Repr

/-! ## Names of Table 82 and of the states -/

/-- The part states (R173). -/
inductive PartState where
  | disabled
  | starting
  | running
  | draining
  | halted
deriving DecidableEq, Repr

/-- The halt causes (R178). -/
inductive HaltCause where
  | none
  | setupRead
  | setupInvalid
  | fetchRead
deriving DecidableEq, Repr

/-- The detail codes of Table 82: of the capture checks, of the control checks and of a halt. -/
inductive Detail where
  | none
  | badKind | windowCount | windowUndefined | windowRepeated | windowRange | frameCount | startSource | exposureTime
  | interval | strobeLead | latchLevel | triggerTimeout
  | windowNumber | windowSize | skipValue | skipMultiple | mosaicOrigin | windowExtent | byteSize | orderPermutation
  | sensorAddress | powerAction
  | setupAddress | controlRing | captureRing | bufferRing | completionRing | progressAddress | columns | lines | depth
  | frameTimeout | settleTime | coalesceCount | coalesceDelay
deriving DecidableEq, Repr

/-- Control statuses (R141). -/
inductive ControlStatus where
  | done | applied | discarded | already | badRecord | badField | inUse | busy | stageFull | sensorOff | portTimeout
  | notFound
deriving DecidableEq, Repr

/-- Frame outcomes (Table 16). -/
inductive FrameOutcome where
  | good | skipped | stopped | aborted | triggerTimeout | sensorOff | sensorLost | timeout | overrun | sequence
deriving DecidableEq, Repr

/-- Window result statuses (Table 41); `partialRows` is PARTIAL. -/
inductive WindowResult where
  | complete | partialRows | empty | noBuffer
deriving DecidableEq, Repr

/-- Final statuses of a REQUEST_END (Table 10). -/
inductive FinalStatus where
  | complete | stopped | aborted | flushed | triggerTimeout | sensorOff | sensorLost | badRequest
deriving DecidableEq, Repr

/-- Reasons of a BUFFER_RETURN (R163). -/
inductive ReturnReason where
  | short | badBuffer | unused
deriving DecidableEq, Repr

/-! ## Host Link -/

/-- What the part puts on the Host Link: a posted memory write or an interrupt message (R103, R156, R161, R171). -/
inductive LinkWrite where
  | memory (addr : Addr) (data : List Byte)
  | message
deriving DecidableEq, Repr

/-- Host Link state and the registers that act on the part state. `issued` is the model's own record of what the part
put on the link, oldest first (DESIGN CHOICE, log entry 5). -/
structure HostLink where
  enable : Bool
  part : PartState
  haltCause : HaltCause
  haltDetail : Detail
  setupLo : Word
  setupHi : Word
  msi : Bool
  line : Bool
  issued : List LinkWrite
deriving DecidableEq, Repr

/-! ## Ring Unit -/

/-- Address and size in entries of one ring (Table 59). -/
structure RingDesc where
  addr : Addr
  size : Nat
deriving DecidableEq, Repr

/-- The held values of a Setup Block (Table 59, R148); times in the units of the table. -/
structure Setup where
  control : RingDesc
  capture : RingDesc
  buffer : RingDesc
  completion : RingDesc
  progress : Addr
  columns : Nat
  lines : Nat
  depth : Nat
  frameTimeout : Nat
  settleTime : Nat
  coalesceCount : Nat
  coalesceDelay : Nat
deriving DecidableEq, Repr

/-- A host read in progress: the address and the number of bytes it asks host memory for, and its 50 ms limit
(R146, R153, R154). -/
structure ReadInProgress where
  addr : Addr
  bytes : Nat
  timer : Timer
deriving DecidableEq, Repr

/-- Ring Unit: heads, tail registers, held Setup Block values and the host reads in progress
(R145, R148, R153, R154). -/
structure RingUnit where
  ctlHead : Nat
  capHead : Nat
  bufHead : Nat
  ctlTail : Word
  capTail : Word
  bufTail : Word
  setup : Option Setup
  setupRead : Option ReadInProgress
  ctlRead : Option ReadInProgress
  capRead : Option ReadInProgress
  bufRead : Option ReadInProgress
deriving DecidableEq, Repr

/-! ## Control Engine -/

/-- A credit of one slot as its requester sees it (R132, R3). -/
inductive CreditState where
  | none
  | asked
  | held
deriving DecidableEq, Repr

/-- Engine states (R132). -/
inductive EngineMode where
  | idle
  | waitCredit
  | executing
deriving DecidableEq, Repr

/-- The records that keep the engine in EXECUTING (Table 54), with their fields. `joined` marks an ON taken in SETTLING
or REPLAYING, which completes ALREADY when the sensor is READY (R124). -/
inductive Work where
  | write (address : Half) (value : Half)
  | read (address : Half)
  | power (cycle : Bool) (replay : Bool) (joined : Bool)
  | flush
deriving DecidableEq, Repr

/-- The record in hand (R132). -/
structure Job where
  tag : Word
  work : Work
deriving DecidableEq, Repr

/-- Control Engine (R132). -/
structure Engine where
  mode : EngineMode
  credit : CreditState
  job : Option Job
deriving DecidableEq, Repr

/-! ## Capture Scheduler -/

/-- Start sources (Table 6). -/
inductive StartSource where
  | software | edge | level | interval
deriving DecidableEq, Repr

/-- The fields of a valid capture request (Table 6); the tag stands in the entry. `falling` is the trigger polarity,
`skip` the buffer policy SKIP, `discard` the early-trigger policy DISCARD. -/
structure CaptureRequest where
  windows : List Nat
  frames : Nat
  source : StartSource
  falling : Bool
  exposure : Nat
  interval : Nat
  strobe : Bool
  lead : Nat
  skip : Bool
  discard : Bool
  overlap : Bool
  timeout : Nat
deriving DecidableEq, Repr

/-- Form of a queue entry (R4): VALID with its fields, REJECTED with its detail, or FLUSHED_AT_FETCH. -/
inductive EntryForm where
  | valid (request : CaptureRequest)
  | rejected (detail : Detail)
  | flushedAtFetch
deriving DecidableEq, Repr

/-- Stop marks (Table 9). -/
inductive StopMark where
  | none
  | stopped
  | flushed
deriving DecidableEq, Repr

/-- A Capture Queue entry (Table 9). The REQUEST_END reservation of one slot is the entry itself (R9). -/
structure Entry where
  tag : Word
  form : EntryForm
  mark : StopMark
  begun : Nat
  ended : Nat
  good : Nat
  skipped : Nat
  missed : Nat
deriving DecidableEq, Repr

/-- Stop modes of the active request (R22). -/
inductive StopMode where
  | none
  | graceful
  | abort
deriving DecidableEq, Repr

/-- End causes of the active request (R15). -/
inductive EndCause where
  | stopped | aborted | triggerTimeout | sensorOff | sensorLost
deriving DecidableEq, Repr

/-- Capture Scheduler (chapter 1): the queue, head first; stop mode, end cause and interval timer of the active request;
the flush mark; the scheduler's credit (R3). -/
structure Scheduler where
  queue : List Entry
  stopMode : StopMode
  endCause : Option EndCause
  interval : Option Timer
  flushMark : Option Nat
  credit : CreditState
deriving DecidableEq, Repr

/-! ## Exposure Sequencer -/

/-- States of a Frame Context that is not FREE (Table 13). -/
inductive Phase where
  | reserving | gap | waitStart | lead | exposing | readout | closing
deriving DecidableEq, Repr

/-- The flags of a frame (Table 13). -/
structure FrameFlags where
  stretched : Bool := false
  latchedStart : Bool := false
  shortLevel : Bool := false
  badLines : Bool := false
  sequence : Bool := false
  overrun : Bool := false
  discard : Bool := false
deriving DecidableEq, Repr

/-- A buffer held by an assignment (Table 38). -/
structure BufferRef where
  tag : Word
  addr : Addr
  length : Nat
deriving DecidableEq, Repr

/-- An assignment (Table 13), with the byte size the context computed for its window (R95), 0 until then. -/
structure Assignment where
  window : Nat
  buffer : Option BufferRef
  written : Nat
  byteSize : Nat
  result : Option WindowResult
deriving DecidableEq, Repr

/-- A Frame Context that carries a frame (Table 13), with its three timers (R54), the mark that its readout timed out
(R45) and its request for a return credit (R96). -/
structure Frame where
  phase : Phase
  index : Nat
  assignments : List Assignment
  slots : Nat
  creditHeld : Bool
  returnAsked : Bool
  expStart : Option Stamp
  actual : Option Stamp
  endPending : Bool
  generation : Option Word
  sensorFrame : Option Byte
  badLines : Nat
  missingLines : Nat
  missed : Nat
  flags : FrameFlags
  timedOut : Bool
  outcome : Option FrameOutcome
  leadTimer : Option Timer
  expTimer : Option Timer
  trigTimer : Option Timer
deriving DecidableEq, Repr

/-- Exposure Sequencer (chapter 2). A context is FREE when its field is `none` (R27). `trigger` is the filtered level of
TRIGGER, `pin` the level at its pin, and `hold` the 1 µs of the filter, which runs while the two differ (R185). -/
structure Sequencer where
  ctx0 : Option Frame
  ctx1 : Option Frame
  next : CtxId
  latch : Bool
  missed : Nat
  expose : Bool
  strobe : Bool
  trigger : Level
  pin : Level
  hold : Option Timer
deriving DecidableEq, Repr

/-! ## Stream Receiver -/

/-- Receiver states (R76). -/
inductive ReceiverState where
  | idle
  | expecting
  | receiving
deriving DecidableEq, Repr

/-- Stream Receiver (Table 31). -/
structure Receiver where
  state : ReceiverState
  served : Option CtxId
  expected : Nat
  timer : Option Timer
  stray : Nat
deriving DecidableEq, Repr

/-! ## Line Assembler, Window Cutter, Output Store, Buffer Unit -/

/-- A slice (Table 27). -/
structure Slice where
  ctx : CtxId
  position : Nat
  offset : Nat
  data : List Byte
deriving DecidableEq, Repr

/-- A Window Table entry (Table 21): `none` is EMPTY. -/
structure WindowEntry where
  window : Option WindowDef
  refs : Nat
deriving DecidableEq, Repr

/-- Window Cutter and Line Assembler: the Window Table by number (R57), the Segment Order Table by position (R67), and the
slices formed from delivered lines and not yet offered (R83, DESIGN CHOICE, log entry 8). -/
structure Cutter where
  windows : List WindowEntry
  order : List Nat
  inHand : List Slice
deriving DecidableEq, Repr

/-- Output Store: the list of slices awaiting writing, oldest first (R100). -/
structure OutputStore where
  slices : List Slice
deriving DecidableEq, Repr

/-- A cached buffer entry (R92). -/
structure CacheEntry where
  addr : Addr
  length : Nat
  tag : Word
  valid : Bool
  position : Nat
deriving DecidableEq, Repr

/-- Buffer Unit: the Buffer Cache, front first (R92). -/
structure BufferUnit where
  cache : List CacheEntry
deriving DecidableEq, Repr

/-! ## Sensor Link -/

/-- Sensor power states (R123). -/
inductive PowerState where
  | off
  | settling
  | replaying
  | ready
deriving DecidableEq, Repr

/-- A Settings Mirror entry other than ABSENT: STALE or CURRENT, with its value (R111). -/
structure MirrorEntry where
  stale : Bool
  value : Half
deriving DecidableEq, Repr

/-- Whose transaction holds the port (R110). `cleared` is a transaction of the Control Engine whose record a halt has
cleared, and `leftFlush` the WRITE of a flush that a halt left behind and that is no longer in progress since the part
entered STARTING: it carries the generation that stands when it ends (R130, Table 49). -/
inductive PortOwner where
  | replay
  | flush
  | engine
  | cleared
  | leftFlush (generation : Word)
deriving DecidableEq, Repr

/-- The two kinds of transaction (R109). -/
inductive PortOp where
  | write (address : Half) (value : Half)
  | read (address : Half)
deriving DecidableEq, Repr

/-- The transaction in progress on the sensor port, with its acknowledge timer (R109). -/
structure Transaction where
  owner : PortOwner
  op : PortOp
  timer : Timer
deriving DecidableEq, Repr

/-- A Staged Settings List entry (R114); its reserved slot is the entry itself. -/
structure Staged where
  address : Half
  value : Half
  tag : Word
  inProgress : Bool
deriving DecidableEq, Repr

/-- The flush record (R116). -/
structure Flush where
  generation : Word
  taken : Nat
deriving DecidableEq, Repr

/-- Sensor Link (chapter 6). The mirror lists the addresses that are not ABSENT, in ascending order. -/
structure SensorLink where
  power : PowerState
  enableOut : Bool
  settle : Option Timer
  replayFlag : Bool
  replayPos : Nat
  replayed : Nat
  failed : Nat
  port : Option Transaction
  replayWaits : Bool
  flushWaits : Bool
  engineWaits : Bool
  mirror : List (Nat × MirrorEntry)
  staged : List Staged
  flush : Option Flush
  generation : Word
deriving DecidableEq, Repr

/-! ## Completion Writer -/

/-- The three interrupt causes, as INT_CAUSE and INT_MASK hold them (R170, R171). -/
structure Causes where
  completion : Bool
  halt : Bool
  badIndex : Bool
deriving DecidableEq, Repr

/-- Completion Writer (chapter 9); `head` is CPL_HEAD. -/
structure Completions where
  tail : Nat
  phase : Bool
  head : Word
  unsignalled : Nat
  timer : Option Timer
  cause : Causes
  mask : Causes
deriving DecidableEq, Repr

/-- The whole part. `free` counts the free values used and `pending` is the queue of waiting commands: both are the
model's own (log entries 2, 6 and 7). -/
structure State where
  now : Stamp
  link : HostLink
  ring : RingUnit
  engine : Engine
  sched : Scheduler
  seq : Sequencer
  recv : Receiver
  cutter : Cutter
  store : OutputStore
  bufs : BufferUnit
  sensor : SensorLink
  cpl : Completions
  free : Nat
  pending : List Instr
deriving DecidableEq, Repr

/-- The reasons for which a step of the model could stop with a fault: there is none. A fault of the part is the part
state HALTED, a next state (R178). -/
inductive Fault where
deriving DecidableEq, Repr

/-- The reasons for which a step of the model could be refused. -/
inductive Refusal where
  /-- Raised by an arm of exec for a command that has no meaning yet; no arm raises it. Safe: the model stops. -/
  | notModelled (mnemonic : String)
deriving DecidableEq, Repr

/-- No cause set, no cause enabled. -/
def Causes.clear : Causes := { completion := false, halt := false, badIndex := false }

/-- An EMPTY, unpinned Window Table entry (R73). -/
def WindowEntry.clear : WindowEntry := { window := none, refs := 0 }

/-- The part right after power-on (R180, Tables 12, 20, 28, 35, 42, 49, 57, 63, 69 and 73). The TRIGGER level, which R185
takes from the pin, is low here (DESIGN CHOICE, log entry 4). -/
def State.reset : State where
  now := 0
  link :=
    { enable := false, part := .disabled, haltCause := .none, haltDetail := .none, setupLo := 0, setupHi := 0, msi := false,
      line := false, issued := [] }
  ring :=
    { ctlHead := 0, capHead := 0, bufHead := 0, ctlTail := 0, capTail := 0, bufTail := 0, setup := none, setupRead := none,
      ctlRead := none, capRead := none, bufRead := none }
  engine := { mode := .idle, credit := .none, job := none }
  sched := { queue := [], stopMode := .none, endCause := none, interval := none, flushMark := none, credit := .none }
  seq :=
    { ctx0 := none, ctx1 := none, next := .c0, latch := false, missed := 0, expose := false, strobe := false,
      trigger := .low, pin := .low, hold := none }
  recv := { state := .idle, served := none, expected := 0, timer := none, stray := 0 }
  cutter := { windows := List.replicate 16 WindowEntry.clear, order := List.range 16, inHand := [] }
  store := { slices := [] }
  bufs := { cache := [] }
  sensor :=
    { power := .off, enableOut := false, settle := none, replayFlag := false, replayPos := 0, replayed := 0, failed := 0,
      port := none, replayWaits := false, flushWaits := false, engineWaits := false, mirror := [], staged := [],
      flush := none, generation := 0 }
  cpl :=
    { tail := 0, phase := true, head := 0, unsignalled := 0, timer := none, cause := Causes.clear, mask := Causes.clear }
  free := 0
  pending := []

end Sys2Proof.Machine
end

