-- ==== Sys2Proof/Machine/Operands.lean ====
section
/-! DEFINITION. The byte layouts of R182 and R183: the records the part reads, field by field, and the bytes it writes
(completion slots, Progress Block), with the codes of Table 82. All multi-byte fields are little-endian. -/

namespace Sys2Proof.Machine

open Sys2Proof

/-! ## Bytes -/

/-- The number that little-endian bytes spell. -/
def leValue : List Byte → Nat
  | [] => 0
  | b :: bs => b.toNat + 256 * leValue bs

/-- The `n` little-endian bytes of a number. -/
def leBytes : Nat → Nat → List Byte
  | 0, _ => []
  | n + 1, v => BitVec.ofNat 8 v :: leBytes n (v / 256)

/-- The field of `size` bytes at offset `off` of a record. -/
def field (data : List Byte) (off size : Nat) : Nat :=
  leValue ((data.drop off).take size)

/-- Bit `bit` of the byte at offset `off`. -/
def fieldBit (data : List Byte) (off bit : Nat) : Bool :=
  (field data off 1).testBit bit

/-- A run of bytes padded with zeros to `n` bytes. -/
def padTo (n : Nat) (data : List Byte) : List Byte :=
  data ++ List.replicate (n - data.length) 0

/-- A flag byte from its bits, bit 0 first. -/
def flagByte : List Bool → Nat
  | [] => 0
  | b :: bs => b.toNat + 2 * flagByte bs

/-! ## Codes (Tables 75, 76, 80 and 82) -/

/-- Detail codes of Table 82. -/
def Detail.code : Detail → Nat
  | .none => 0x00
  | .badKind => 0x01 | .windowCount => 0x02 | .windowUndefined => 0x03 | .windowRepeated => 0x04
  | .windowRange => 0x05 | .frameCount => 0x06 | .startSource => 0x07 | .exposureTime => 0x08
  | .interval => 0x09 | .strobeLead => 0x0A | .latchLevel => 0x0B | .triggerTimeout => 0x0C
  | .windowNumber => 0x20 | .windowSize => 0x21 | .skipValue => 0x22 | .skipMultiple => 0x23
  | .mosaicOrigin => 0x24 | .windowExtent => 0x25 | .byteSize => 0x26 | .orderPermutation => 0x27
  | .sensorAddress => 0x28 | .powerAction => 0x29
  | .setupAddress => 0x40 | .controlRing => 0x41 | .captureRing => 0x42 | .bufferRing => 0x43
  | .completionRing => 0x44 | .progressAddress => 0x45 | .columns => 0x46 | .lines => 0x47 | .depth => 0x48
  | .frameTimeout => 0x49 | .settleTime => 0x4A | .coalesceCount => 0x4B | .coalesceDelay => 0x4C

/-- Control status codes of Table 82. -/
def ControlStatus.code : ControlStatus → Nat
  | .done => 0 | .applied => 1 | .discarded => 2 | .already => 3 | .badRecord => 4 | .badField => 5 | .inUse => 6
  | .busy => 7 | .stageFull => 8 | .sensorOff => 9 | .portTimeout => 10 | .notFound => 11

/-- Frame outcome codes of Table 82. -/
def FrameOutcome.code : FrameOutcome → Nat
  | .good => 0 | .skipped => 1 | .stopped => 2 | .aborted => 3 | .triggerTimeout => 4 | .sensorOff => 5
  | .sensorLost => 6 | .timeout => 7 | .overrun => 8 | .sequence => 9

/-- Window result codes of Table 82. -/
def WindowResult.code : WindowResult → Nat
  | .complete => 0 | .partialRows => 1 | .empty => 2 | .noBuffer => 3

/-- REQUEST_END final status codes of Table 82. -/
def FinalStatus.code : FinalStatus → Nat
  | .complete => 0 | .stopped => 1 | .aborted => 2 | .flushed => 3 | .triggerTimeout => 4 | .sensorOff => 5
  | .sensorLost => 6 | .badRequest => 7

/-- BUFFER_RETURN reason codes of Table 82. -/
def ReturnReason.code : ReturnReason → Nat
  | .short => 1 | .badBuffer => 2 | .unused => 3

/-- Control kind codes of Table 76. -/
def kindMark : Byte := 0x01
def kindWindowSet : Byte := 0x02
def kindWindowClear : Byte := 0x03
def kindOrderSet : Byte := 0x04
def kindSensorWrite : Byte := 0x05
def kindSensorRead : Byte := 0x06
def kindSensorPower : Byte := 0x07
def kindFlushStaged : Byte := 0x08
def kindDiscardStaged : Byte := 0x09
def kindStop : Byte := 0x0A

/-- The kind of a record in hand (R140). -/
def Work.kind : Work → Byte
  | .write _ _ => kindSensorWrite
  | .read _ => kindSensorRead
  | .power _ _ _ => kindSensorPower
  | .flush => kindFlushStaged

/-! ## Records the part reads (R182) -/

/-- The Setup Block (Table 78). -/
def parseSetup (data : List Byte) : Setup where
  control := { addr := BitVec.ofNat 64 (field data 0 8), size := field data 40 2 }
  capture := { addr := BitVec.ofNat 64 (field data 8 8), size := field data 42 2 }
  buffer := { addr := BitVec.ofNat 64 (field data 16 8), size := field data 44 2 }
  completion := { addr := BitVec.ofNat 64 (field data 24 8), size := field data 46 2 }
  progress := BitVec.ofNat 64 (field data 32 8)
  columns := field data 48 2
  lines := field data 50 2
  depth := field data 52 1
  coalesceCount := field data 53 1
  frameTimeout := field data 54 2
  settleTime := field data 56 2
  coalesceDelay := field data 58 2

/-- A ring size is one of the powers of two up to 4096. -/
def isRingPower (n : Nat) : Bool :=
  (List.range 13).any (fun k => n == 2 ^ k)

/-- A ring's size and place are as checks 1 to 4 of Table 59 ask. -/
def ringOk (r : RingDesc) (low high record : Nat) : Bool :=
  isRingPower r.size &&
    decide (low ≤ r.size ∧ r.size ≤ high ∧ r.addr.toNat % 64 = 0 ∧ r.addr.toNat + r.size * record ≤ 2 ^ 64)

/-- The checks of Table 59 in order: the detail of the first that fails, or none (R147). -/
def setupCheck (u : Setup) : Option Detail :=
  if !ringOk u.control 16 1024 64 then some .controlRing
  else if !ringOk u.capture 16 1024 64 then some .captureRing
  else if !ringOk u.buffer 16 4096 16 then some .bufferRing
  else if !ringOk u.completion 32 4096 64 then some .completionRing
  else if !decide (u.progress.toNat % 16 = 0 ∧ u.progress.toNat + 16 ≤ 2 ^ 64) then some .progressAddress
  else if !decide (16 ≤ u.columns ∧ u.columns ≤ 4096 ∧ u.columns % 16 = 0) then some .columns
  else if !decide (2 ≤ u.lines ∧ u.lines ≤ 4096) then some .lines
  else if !decide (u.depth = 8 ∨ u.depth = 10 ∨ u.depth = 12) then some .depth
  else if !decide (1 ≤ u.frameTimeout ∧ u.frameTimeout ≤ 10000) then some .frameTimeout
  else if !decide (1 ≤ u.settleTime ∧ u.settleTime ≤ 1000) then some .settleTime
  else if !decide (1 ≤ u.coalesceCount ∧ u.coalesceCount ≤ 64) then some .coalesceCount
  else if !decide (u.coalesceDelay ≤ 10000) then some .coalesceDelay
  else none

/-- The window list of a capture record: the first `window count` of its six places (R1, Table 75). -/
def parseWindowList (data : List Byte) : List Nat :=
  (((data.drop 2).take 6).map BitVec.toNat).take (field data 1 1)

/-- The start source a code names (Table 75). -/
def parseSource : Nat → Option StartSource
  | 0 => some .software
  | 1 => some .edge
  | 2 => some .level
  | 3 => some .interval
  | _ => none

/-- The request tag of a capture record (Table 75). -/
def parseRequestTag (data : List Byte) : Word :=
  BitVec.ofNat 32 (field data 8 4)

/-- The fields of a capture record whose start source is `source` (Table 75). -/
def parseRequest (source : StartSource) (data : List Byte) : CaptureRequest where
  windows := parseWindowList data
  frames := field data 12 2
  source := source
  falling := fieldBit data 15 0
  exposure := field data 16 4
  interval := field data 20 4
  strobe := fieldBit data 15 1
  lead := field data 24 2
  skip := fieldBit data 15 2
  discard := fieldBit data 15 3
  overlap := fieldBit data 15 4
  timeout := field data 26 2

/-- A buffer entry read from a ring position, with the checks of R91 (Table 77). -/
def parseBuffer (position : Nat) (data : List Byte) : CacheEntry where
  addr := BitVec.ofNat 64 (field data 0 8)
  length := field data 8 4
  tag := BitVec.ofNat 32 (field data 12 4)
  valid :=
    decide (field data 0 8 % 8 = 0 ∧ Config.minBufferBytes ≤ field data 8 4 ∧ field data 8 4 ≤ Config.maxWindowBytes ∧
      field data 0 8 + field data 8 4 ≤ 2 ^ 64)
  position := position

/-! ## Records the part writes (R183) -/

/-- The contents of a CONTROL completion (Table 55). -/
structure ControlResult where
  kind : Byte
  tag : Word
  status : ControlStatus
  detail : Detail := .none
  read : Half := 0
  generation : Option Word := none
  replayed : Nat := 0
  failed : Nat := 0
deriving DecidableEq, Repr

/-- The contents of a FRAME completion (Table 64). -/
structure FrameReport where
  tag : Word
  index : Nat
  outcome : FrameOutcome
  flags : FrameFlags
  assignments : List Assignment
  expStart : Option Stamp
  actual : Option Stamp
  generation : Option Word
  sensorFrame : Option Byte
  badLines : Nat
  missingLines : Nat
  missed : Nat
  stray : Nat
deriving DecidableEq, Repr

/-- The contents of a REQUEST_END completion (Table 65). -/
structure RequestReport where
  tag : Word
  status : FinalStatus
  detail : Detail
  begun : Nat
  good : Nat
  skipped : Nat
  missed : Nat
deriving DecidableEq, Repr

/-- A completion handed to the Completion Writer (R161 to R163). -/
inductive Completion where
  | frame (r : FrameReport)
  | requestEnd (r : RequestReport)
  | control (r : ControlResult)
  | bufferReturn (tag : Word) (reason : ReturnReason)
deriving DecidableEq, Repr

/-- The flags byte of a FRAME slot (Table 80). -/
def FrameFlags.byte (f : FrameFlags) : Nat :=
  flagByte [f.stretched, f.latchedStart, f.shortLevel, f.badLines, f.sequence, f.overrun, f.discard]

/-- The 10-byte group of a window assignment; an unused place reports window 0, tag 0, bytes 0 and NO_BUFFER
(Table 80, R162, Table 41). -/
def assignmentBytes : Option Assignment → List Byte
  | none => leBytes 1 0 ++ leBytes 1 WindowResult.noBuffer.code ++ leBytes 4 0 ++ leBytes 4 0
  | some a =>
    leBytes 1 a.window ++ leBytes 1 ((a.result.getD .noBuffer).code) ++
      (match a.buffer with
        | none => leBytes 4 0 ++ leBytes 4 0
        | some b => leBytes 4 b.tag.toNat ++ leBytes 4 a.written)

/-- Bytes 0 to 62 of a FRAME slot (Table 80). -/
def frameBytes (r : FrameReport) : List Byte :=
  leBytes 1 1 ++ leBytes 1 r.assignments.length ++ leBytes 1 r.outcome.code ++ leBytes 1 r.flags.byte ++
    leBytes 4 r.tag.toNat ++ leBytes 2 r.index ++ leBytes 1 (r.sensorFrame.getD 0).toNat ++
    leBytes 1 (flagByte [r.sensorFrame.isSome, r.generation.isSome]) ++ leBytes 4 (r.generation.getD 0).toNat ++
    leBytes 8 (r.expStart.getD 0).toNat ++ leBytes 4 (r.actual.getD 0).toNat ++ leBytes 2 r.badLines ++
    leBytes 2 r.missingLines ++ leBytes 2 r.missed ++ leBytes 2 r.stray ++
    assignmentBytes (r.assignments[0]?) ++ assignmentBytes (r.assignments[1]?)

/-- Bytes 0 to 62 of a FRAME_CONT slot (Table 80). -/
def frameContBytes (r : FrameReport) : List Byte :=
  leBytes 4 2 ++ leBytes 4 r.tag.toNat ++ leBytes 2 r.index ++ leBytes 2 0 ++ assignmentBytes (r.assignments[2]?) ++
    assignmentBytes (r.assignments[3]?) ++ assignmentBytes (r.assignments[4]?) ++ assignmentBytes (r.assignments[5]?)

/-- Bytes 0 to 62 of a REQUEST_END slot (Table 80). -/
def requestEndBytes (r : RequestReport) : List Byte :=
  leBytes 1 3 ++ leBytes 1 r.status.code ++ leBytes 1 r.detail.code ++ leBytes 1 0 ++ leBytes 4 r.tag.toNat ++
    leBytes 2 r.begun ++ leBytes 2 r.good ++ leBytes 2 r.skipped ++ leBytes 2 r.missed

/-- Bytes 0 to 62 of a CONTROL slot (Table 80). -/
def controlBytes (r : ControlResult) : List Byte :=
  leBytes 1 4 ++ leBytes 1 r.kind.toNat ++ leBytes 1 r.status.code ++ leBytes 1 r.detail.code ++ leBytes 4 r.tag.toNat ++
    leBytes 2 r.read.toNat ++ leBytes 1 (flagByte [r.generation.isSome]) ++ leBytes 1 0 ++
    leBytes 4 (r.generation.getD 0).toNat ++ leBytes 2 r.replayed ++ leBytes 2 r.failed

/-- Bytes 0 to 62 of a BUFFER_RETURN slot (Table 80). -/
def bufferReturnBytes (tag : Word) (reason : ReturnReason) : List Byte :=
  leBytes 1 5 ++ leBytes 1 reason.code ++ leBytes 2 0 ++ leBytes 4 tag.toNat

/-- A whole slot of 64 bytes: its contents, zeros, and the phase in bit 0 of byte 63 (R183). -/
def slotBytes (phase : Bool) (contents : List Byte) : List Byte :=
  padTo 63 contents ++ leBytes 1 phase.toNat

/-- The contents of the slots a completion occupies, first slot first: two for a FRAME of three windows or more
(R160, R162). -/
def Completion.slots : Completion → List (List Byte)
  | .frame r => if r.assignments.length ≤ 2 then [frameBytes r] else [frameBytes r, frameContBytes r]
  | .requestEnd r => [requestEndBytes r]
  | .control r => [controlBytes r]
  | .bufferReturn tag reason => [bufferReturnBytes tag reason]

/-- The Progress Block (Table 79). -/
def progressBytes (ctl cap buf : Nat) : List Byte :=
  padTo 16 (leBytes 2 ctl ++ leBytes 2 cap ++ leBytes 2 buf)

end Sys2Proof.Machine
end

