-- ==== Sys2Proof/WellFormed.lean ====
section
/-! DEFINITION. Which terms of `Instr` stand for a command that the spec admits: record lengths, and the codes and
offsets that make a row the row it is. Every other operand is in range by its type. -/

namespace Sys2Proof

/-- The code of a control kind lies in 01H to 0AH (Table 76). -/
def isControlKind (kind : Byte) : Bool :=
  decide (1 ≤ kind.toNat ∧ kind.toNat ≤ 10)

/-- The code of a power action is OFF, ON or CYCLE (Table 76). -/
def isPowerAction (action : Byte) : Bool :=
  decide (1 ≤ action.toNat ∧ action.toNat ≤ 3)

/-- A register window offset at which a four-byte write is taken: CONTROL, INT_CAUSE to CPL_HEAD (Table 83, R184). -/
def isWritableOffset (offset : BitVec 12) : Bool :=
  decide (offset.toNat % 4 = 0 ∧ offset.toNat ≤ 0x28 ∧ offset.toNat ≠ 0x00 ∧ offset.toNat ≠ 0x08)

/-- The command stands for an event the spec admits. -/
def Instr.WellFormed : Instr → Bool
  | .registerWriteOther offset width _ => !(width == 4 && isWritableOffset offset)
  | .setupReadDone data => data.length == 64
  | .captureRecordRead data => data.length == 64
  | .bufferEntryRead data => data.length == 16
  | .badRecord kind _ => !isControlKind kind
  | .orderSet _ values => values.length == 16
  | .line _ pixels _ => decide (pixels.length ≤ 65535)
  | .sensorPowerBadField _ action => !isPowerAction action
  | .powerOn _ | .functionReset _ | .partReset _ _ | .enableSet | .enableClear | .intCauseWrite _ | .intMaskWrite _
  | .msiEnableWrite _ | .setupAddrWrite _ _ | .tailWrite _ _ | .cplHeadWrite _ | .setupReadError _
  | .hostReadTimeout _ | .fetchReadError _ _ | .drainFinish | .creditGrant | .mark _ | .windowSet _ _ _
  | .windowClear _ _ | .sensorWriteNow _ _ _ | .sensorWriteStaged _ _ _ | .sensorRead _ _ | .sensorPowerOff _ _
  | .sensorPowerOn _ _ | .sensorPowerCycle _ _ | .flushStaged _ | .discardStaged _ | .stopTag _ _ _ | .stopAll _ _ _
  | .frameBegin | .triggerTransition _ | .intervalTick | .triggerTimeoutExpiry _ | .leadExpiry _
  | .exposureTimerExpiry _ | .frameStart _ | .frameEnd _ | .unknownPacket | .frameTimerExpiry | .sliceOffer
  | .sliceWriteDone | .framePost _ | .requestEnd | .coalescingTimerExpiry | .sensorAck _ | .ackTimeout
  | .settleTimerExpiry => true

end Sys2Proof
end

