-- ==== Sys2Proof/Decode.lean ====
section
/-! DEFINITION. From bits to commands: the table's words (none), the 64-byte control records of Table 76 with their
encoder, and writes of the register window (R184). -/

namespace Sys2Proof

open Machine

/-- The command a word of the table spells: the table gives no row bits, so no word spells one (DEDUCED, log entry 13). -/
def decodeTableWord (_nbits _w : Nat) : Option Instr := none

/-! ## Control records (R134, R182, Table 76) -/

/-- The control tag of a control record (Table 76). -/
def recordTag (data : List Byte) : Word := BitVec.ofNat 32 (field data 4 4)

/-- A two-byte field of a control record. -/
def recordHalf (data : List Byte) (off : Nat) : Half := BitVec.ofNat 16 (field data off 2)

/-- The definition fields of a WINDOW_SET record (Table 76). -/
def recordWindow (data : List Byte) : WindowDef where
  x := recordHalf data 10
  y := recordHalf data 12
  width := recordHalf data 14
  height := recordHalf data 16
  skipX := recordHalf data 18
  skipY := recordHalf data 20
  mosaic := fieldBit data 22 0
  format := if fieldBit data 22 1 then .top8 else .native

/-- The mode of a STOP record (Table 76). -/
def recordMode (data : List Byte) : StopKind := if fieldBit data 8 1 then .abort else .graceful

/-- The command that the end of a Control Ring read with these 64 bytes is (R134, R135, R182). -/
def decodeControl (data : List Byte) : Instr :=
  let tag := recordTag data
  match field data 0 1 with
  | 1 => .mark tag
  | 2 => .windowSet tag (recordHalf data 8) (recordWindow data)
  | 3 => .windowClear tag (recordHalf data 8)
  | 4 => .orderSet tag ((data.drop 8).take 16)
  | 5 =>
    if fieldBit data 12 0 then .sensorWriteStaged tag (recordHalf data 8) (recordHalf data 10)
    else .sensorWriteNow tag (recordHalf data 8) (recordHalf data 10)
  | 6 => .sensorRead tag (recordHalf data 8)
  | 7 =>
    match field data 8 1 with
    | 1 => .sensorPowerOff tag (fieldBit data 9 0)
    | 2 => .sensorPowerOn tag (fieldBit data 9 0)
    | 3 => .sensorPowerCycle tag (fieldBit data 9 0)
    | action => .sensorPowerBadField tag (BitVec.ofNat 8 action)
  | 8 => .flushStaged tag
  | 9 => .discardStaged tag
  | 10 =>
    if fieldBit data 8 0 then .stopAll tag (BitVec.ofNat 32 (field data 12 4)) (recordMode data)
    else .stopTag tag (BitVec.ofNat 32 (field data 12 4)) (recordMode data)
  | kind => .badRecord (BitVec.ofNat 8 kind) tag

/-- A control record of 64 bytes: kind, three bytes not read, tag and the kind's fields; bytes outside them are 0. -/
def recordOf (kind : Byte) (tag : Word) (fields : List Byte) : List Byte :=
  padTo 64 (leBytes 1 kind.toNat ++ leBytes 3 0 ++ leBytes 4 tag.toNat ++ fields)

/-- The flag byte of a STOP record (Table 76). -/
def stopByte (all : Bool) (mode : StopKind) : Nat := flagByte [all, decide (mode = .abort)]

/-- The 64 bytes of a control record; none for a command that is no control record (Table 76). -/
def encodeControl : Instr → Option (List Byte)
  | .mark tag => some (recordOf kindMark tag [])
  | .badRecord kind tag => some (recordOf kind tag [])
  | .windowSet tag number w =>
    some (recordOf kindWindowSet tag
      (leBytes 2 number.toNat ++ leBytes 2 w.x.toNat ++ leBytes 2 w.y.toNat ++ leBytes 2 w.width.toNat ++
        leBytes 2 w.height.toNat ++ leBytes 2 w.skipX.toNat ++ leBytes 2 w.skipY.toNat ++
        leBytes 1 (flagByte [w.mosaic, decide (w.format = .top8)])))
  | .windowClear tag number => some (recordOf kindWindowClear tag (leBytes 2 number.toNat))
  | .orderSet tag values => some (recordOf kindOrderSet tag values)
  | .sensorWriteNow tag a v =>
    some (recordOf kindSensorWrite tag (leBytes 2 a.toNat ++ leBytes 2 v.toNat ++ leBytes 1 0))
  | .sensorWriteStaged tag a v =>
    some (recordOf kindSensorWrite tag (leBytes 2 a.toNat ++ leBytes 2 v.toNat ++ leBytes 1 1))
  | .sensorRead tag a => some (recordOf kindSensorRead tag (leBytes 2 a.toNat))
  | .sensorPowerOff tag replay => some (recordOf kindSensorPower tag (leBytes 1 1 ++ leBytes 1 replay.toNat))
  | .sensorPowerOn tag replay => some (recordOf kindSensorPower tag (leBytes 1 2 ++ leBytes 1 replay.toNat))
  | .sensorPowerCycle tag replay => some (recordOf kindSensorPower tag (leBytes 1 3 ++ leBytes 1 replay.toNat))
  | .sensorPowerBadField tag action => some (recordOf kindSensorPower tag (leBytes 1 action.toNat))
  | .flushStaged tag => some (recordOf kindFlushStaged tag [])
  | .discardStaged tag => some (recordOf kindDiscardStaged tag [])
  | .stopTag tag request mode =>
    some (recordOf kindStop tag (leBytes 1 (stopByte false mode) ++ leBytes 3 0 ++ leBytes 4 request.toNat))
  | .stopAll tag request mode =>
    some (recordOf kindStop tag (leBytes 1 (stopByte true mode) ++ leBytes 3 0 ++ leBytes 4 request.toNat))
  | .powerOn _ | .functionReset _ | .partReset _ _ | .enableSet | .enableClear | .intCauseWrite _ | .intMaskWrite _
  | .msiEnableWrite _ | .setupAddrWrite _ _ | .tailWrite _ _ | .cplHeadWrite _ | .registerWriteOther _ _ _
  | .setupReadDone _ | .setupReadError _ | .hostReadTimeout _ | .fetchReadError _ _ | .drainFinish | .creditGrant
  | .captureRecordRead _ | .bufferEntryRead _ | .frameBegin | .triggerTransition _ | .intervalTick
  | .triggerTimeoutExpiry _ | .leadExpiry _ | .exposureTimerExpiry _ | .frameStart _ | .line _ _ _ | .frameEnd _
  | .unknownPacket | .frameTimerExpiry | .sliceOffer | .sliceWriteDone | .framePost _ | .requestEnd
  | .coalescingTimerExpiry | .sensorAck _ | .ackTimeout | .settleTimerExpiry => none

/-! ## Register window writes (R184) -/

/-- The command that a host write of the register window is: `width` bytes at an offset, with the level at the TRIGGER pin
for a write that is a part reset (R173, R184, R185). -/
def decodeRegisterWrite (offset : BitVec 12) (width : Nat) (value : Word) (pin : Level) : Instr :=
  if width = 4 then
    match offset.toNat with
    | 0x04 =>
      if value.getLsbD 1 then .partReset (value.getLsbD 0) pin
      else if value.getLsbD 0 then .enableSet
      else .enableClear
    | 0x0C => .intCauseWrite value
    | 0x10 => .intMaskWrite value
    | 0x14 => .setupAddrWrite .lo value
    | 0x18 => .setupAddrWrite .hi value
    | 0x1C => .tailWrite .control value
    | 0x20 => .tailWrite .capture value
    | 0x24 => .tailWrite .buffer value
    | 0x28 => .cplHeadWrite value
    | _ => .registerWriteOther offset width value
  else .registerWriteOther offset width value

end Sys2Proof
end

