-- ==== Sys2Proof/Machine/Flags.lean ====
section
/-! DEFINITION. The interrupt causes and their signalling (R170, R171), and the eleven registers as a read returns them
(R181, R184, Table 83). -/

namespace Sys2Proof.Machine

open Sys2Proof

/-! ## Causes and signalling -/

/-- Causes as bits 0 to 2 of a register (Table 83). -/
def Causes.word (c : Causes) : Word :=
  BitVec.ofNat 32 (flagByte [c.completion, c.halt, c.badIndex])

/-- Bits 0 to 2 of a written value; the other bits are discarded (R184). -/
def causesOf (value : Word) : Causes where
  completion := value.getLsbD 0
  halt := value.getLsbD 1
  badIndex := value.getLsbD 2

/-- The causes left after a write of 1 to those of `written` (R170). -/
def Causes.without (c written : Causes) : Causes where
  completion := c.completion && !written.completion
  halt := c.halt && !written.halt
  badIndex := c.badIndex && !written.badIndex

/-- Both sets of causes. -/
def Causes.or (c d : Causes) : Causes where
  completion := c.completion || d.completion
  halt := c.halt || d.halt
  badIndex := c.badIndex || d.badIndex

/-- The signalling condition: a cause is both set and enabled (R171). -/
def signalling (cause mask : Causes) : Bool :=
  (cause.completion && mask.completion) || (cause.halt && mask.halt) || (cause.badIndex && mask.badIndex)

/-- The signalling condition of the part. -/
def State.signalling (s : State) : Bool := Machine.signalling s.cpl.cause s.cpl.mask

/-- Appends one write to what the part has issued on the Host Link. -/
def State.issue (w : LinkWrite) (s : State) : State :=
  { s with link := { s.link with issued := s.link.issued ++ [w] } }

/-- Sets INT_CAUSE and INT_MASK and signals by R171: a message when messages are enabled and the condition goes from
false to true, the line when they are not. -/
def State.setCauses (cause mask : Causes) (s : State) : State :=
  let sent := s.link.msi && !s.signalling && Machine.signalling cause mask
  { s with
    cpl := { s.cpl with cause := cause, mask := mask }
    link :=
      { s.link with
        line := !s.link.msi && Machine.signalling cause mask
        issued := if sent then s.link.issued ++ [.message] else s.link.issued } }

/-- Sets causes that are raised (R170). -/
def State.raise (c : Causes) (s : State) : State :=
  s.setCauses (s.cpl.cause.or c) s.cpl.mask

/-- The COMPLETION cause alone. -/
def Causes.onlyCompletion : Causes := { completion := true, halt := false, badIndex := false }

/-- The HALT cause alone. -/
def Causes.onlyHalt : Causes := { completion := false, halt := true, badIndex := false }

/-- The BAD_INDEX cause alone. -/
def Causes.onlyBadIndex : Causes := { completion := false, halt := false, badIndex := true }

/-! ## The register window -/

/-- Part state codes of STATUS (Table 83). -/
def PartState.code : PartState → Nat
  | .disabled => 0 | .starting => 1 | .running => 2 | .draining => 3 | .halted => 4

/-- Sensor power state codes of STATUS (Table 83). -/
def PowerState.code : PowerState → Nat
  | .off => 0 | .settling => 1 | .replaying => 2 | .ready => 3

/-- Halt cause codes of STATUS (Table 83). -/
def HaltCause.code : HaltCause → Nat
  | .none => 0 | .setupRead => 1 | .setupInvalid => 2 | .fetchRead => 3

/-- STATUS (R181, Table 83). -/
def State.status (s : State) : Word :=
  BitVec.ofNat 32
    (s.link.part.code + 16 * s.sensor.power.code + 256 * s.link.haltCause.code + 65536 * s.link.haltDetail.code)

/-- The register at an aligned offset of the register window, as a read returns it; other offsets read 0
(R184, Table 83). -/
def State.register (s : State) (offset : Nat) : Word :=
  match offset with
  | 0x00 => 0x0FC20100
  | 0x04 => BitVec.ofNat 32 s.link.enable.toNat
  | 0x08 => s.status
  | 0x0C => s.cpl.cause.word
  | 0x10 => s.cpl.mask.word
  | 0x14 => s.link.setupLo
  | 0x18 => s.link.setupHi
  | 0x1C => s.ring.ctlTail
  | 0x20 => s.ring.capTail
  | 0x24 => s.ring.bufTail
  | 0x28 => s.cpl.head
  | _ => 0

/-- The byte a read of the register window returns at an offset: a read of any width returns the addressed bytes of the
register (R184). It changes no state, so no command stands for it (DESIGN CHOICE, log entry 15). -/
def State.registerByte (s : State) (offset : Nat) : Byte :=
  (leBytes 4 (s.register (4 * (offset / 4))).toNat).getD (offset % 4) 0

end Sys2Proof.Machine
end

