-- ==== Sys2Proof/Machine/Windows.lean ====
section
/-! DEFINITION. Windows, the segment order and slices as pure functions (chapter 3), and the checks of WINDOW_SET (R59),
ORDER_SET (R68) and of a capture record (R5). -/

namespace Sys2Proof

open Machine

/-! ## Selection and output (R63 to R66) -/

/-- A column or line at relative offset `r` is kept (R63). -/
def keepsOffset (mosaic : Bool) (skip r : Nat) : Bool :=
  if mosaic then decide (r % (2 * skip) < 2) else decide (r % skip = 0)

/-- The output column or row of a kept offset (R64). -/
def outputOffset (mosaic : Bool) (skip r : Nat) : Nat :=
  if mosaic then 2 * (r / (2 * skip)) + r % 2 else r / skip

/-- Output width (R64). -/
def WindowDef.outWidth (w : WindowDef) : Nat := w.width.toNat / w.skipX.toNat

/-- Output height (R64). -/
def WindowDef.outHeight (w : WindowDef) : Nat := w.height.toNat / w.skipY.toNat

/-- Bytes per pixel at a pixel depth (R65). -/
def WindowDef.bytesPerPixel (w : WindowDef) (depth : Nat) : Nat :=
  if depth = 8 ∨ w.format = .top8 then 1 else 2

/-- Byte size at a pixel depth (R66). -/
def WindowDef.byteSize (w : WindowDef) (depth : Nat) : Nat :=
  w.outWidth * w.outHeight * w.bytesPerPixel depth

/-- The window keeps a sensor line (R63). -/
def WindowDef.keepsLine (w : WindowDef) (line : Nat) : Bool :=
  decide (w.y.toNat ≤ line ∧ line - w.y.toNat < w.height.toNat) && keepsOffset w.mosaic w.skipY.toNat (line - w.y.toNat)

/-- The output row of a kept sensor line (R64). -/
def WindowDef.outputRow (w : WindowDef) (line : Nat) : Nat :=
  outputOffset w.mosaic w.skipY.toNat (line - w.y.toNat)

/-- The sensor columns a window keeps, in increasing order (R63, R64). -/
def WindowDef.keptColumns (w : WindowDef) : List Nat :=
  ((List.range w.width.toNat).filter (keepsOffset w.mosaic w.skipX.toNat)).map (w.x.toNat + ·)

/-- A pixel value as the window stores it (R65, Table 25). -/
def WindowDef.storePixel (w : WindowDef) (depth pixel : Nat) : List Byte :=
  if depth = 8 then leBytes 1 pixel
  else match w.format with
    | .native => leBytes 2 pixel
    | .top8 => leBytes 1 (pixel / 2 ^ (depth - 8))

/-- A window lies within the sensor's columns and lines (check 7 of Table 22, check 4 of Table 8). -/
def WindowDef.inside (w : WindowDef) (columns lines : Nat) : Bool :=
  decide (w.x.toNat + w.width.toNat ≤ columns ∧ w.y.toNat + w.height.toNat ≤ lines)

end Sys2Proof

namespace Sys2Proof.Machine

open Sys2Proof

/-! ## The Window Table checks (R59, R68) -/

/-- Window Table entry of a number; a number the table does not have reads as EMPTY. -/
def windowAt (windows : List WindowEntry) (n : Nat) : WindowEntry :=
  windows.getD n WindowEntry.clear

/-- A skip factor is 1, 2 or 4. -/
def isSkip (n : Nat) : Bool := decide (n = 1 ∨ n = 2 ∨ n = 4)

/-- The step of which width or height must be a multiple (check 5 of Table 22). -/
def skipStep (mosaic : Bool) (skip : Nat) : Nat := if mosaic then 2 * skip else skip

/-- The checks of Table 22 in order: status and detail of the first that fails, or none (R59). -/
def windowSetCheck (u : Setup) (windows : List WindowEntry) (n : Nat) (w : WindowDef) : Option (ControlStatus × Detail) :=
  if 16 ≤ n then some (.badField, .windowNumber)
  else if (windowAt windows n).refs ≠ 0 then some (.inUse, .none)
  else if w.width.toNat = 0 ∨ w.height.toNat = 0 then some (.badField, .windowSize)
  else if !(isSkip w.skipX.toNat && isSkip w.skipY.toNat) then some (.badField, .skipValue)
  else if w.width.toNat % skipStep w.mosaic w.skipX.toNat ≠ 0 ∨ w.height.toNat % skipStep w.mosaic w.skipY.toNat ≠ 0 then
    some (.badField, .skipMultiple)
  else if w.mosaic = true ∧ (w.x.toNat % 2 ≠ 0 ∨ w.y.toNat % 2 ≠ 0) then some (.badField, .mosaicOrigin)
  else if !w.inside u.columns u.lines then some (.badField, .windowExtent)
  else if Config.maxWindowBytes < w.byteSize u.depth then some (.badField, .byteSize)
  else none

/-- Sixteen values that form a permutation of 0 to 15 (R67, R68). -/
def isOrder (values : List Nat) : Bool :=
  decide (values.length = 16 ∧ (∀ v ∈ values, v < 16) ∧ values.Nodup)

/-! ## The capture request checks (R5) -/

/-- Check 3 of Table 8 over the window list, in list order. -/
def checkListed (windows : List WindowEntry) : List Nat → List Nat → Option Detail
  | _, [] => none
  | seen, n :: rest =>
    if 16 ≤ n ∨ (windowAt windows n).window = none then some .windowUndefined
    else if n ∈ seen then some .windowRepeated
    else checkListed windows (n :: seen) rest

/-- Check 4 of Table 8: every listed window lies within the current geometry. -/
def listedInside (u : Setup) (windows : List WindowEntry) (list : List Nat) : Bool :=
  list.all fun n => match (windowAt windows n).window with
    | none => false
    | some w => w.inside u.columns u.lines

/-- Checks 7 to 11 of Table 8, on the fields of a record whose start source is known. -/
def checkTimes (r : CaptureRequest) : Option Detail :=
  if !decide (10 ≤ r.exposure ∧ r.exposure ≤ 10000000) then some .exposureTime
  else if r.source = .interval ∧ !decide (1000 ≤ r.interval ∧ r.interval ≤ 60000000) then some .interval
  else if r.strobe = true ∧ 5000 < r.lead then some .strobeLead
  else if r.source = .level ∧ r.discard = false then some .latchLevel
  else if 60000 < r.timeout then some .triggerTimeout
  else none

/-- The eleven checks of Table 8 in order: the detail of the first that fails, or the request (R5). -/
def checkCapture (u : Setup) (windows : List WindowEntry) (data : List Byte) : Except Detail CaptureRequest :=
  if field data 0 1 ≠ 1 then .error .badKind
  else if !decide (1 ≤ field data 1 1 ∧ field data 1 1 ≤ 6) then .error .windowCount
  else match checkListed windows [] (parseWindowList data) with
    | some d => .error d
    | none =>
      if !listedInside u windows (parseWindowList data) then .error .windowRange
      else if !decide (1 ≤ field data 12 2 ∧ field data 12 2 ≤ 1024) then .error .frameCount
      else match parseSource (field data 14 1) with
        | none => .error .startSource
        | some source =>
          match checkTimes (parseRequest source data) with
          | some d => .error d
          | none => .ok (parseRequest source data)

/-! ## The segment order and slices (R67, R69 to R71) -/

/-- A pixel value as the stream carries it: as many bits as the pixel depth (R74, DEDUCED, log entry 9). -/
def pixelValue (depth : Nat) (p : Half) : Nat := p.toNat % 2 ^ depth

/-- The raster line of a line's pixels in arrival order: pixel p of segment k goes to column 16k + (the value at
position p) (R67, R69). -/
def assemble (order : List Nat) (columns : Nat) (pixels : List Nat) : List Nat :=
  (List.range columns).map fun c => pixels.getD (16 * (c / 16) + order.idxOf (c % 16)) 0

/-- The slice of one window from one raster line (R71). -/
def sliceOf (ctx : CtxId) (position depth line : Nat) (raster : List Nat) (w : WindowDef) : Slice where
  ctx := ctx
  position := position
  offset := w.outputRow line * w.outWidth * w.bytesPerPixel depth
  data := w.keptColumns.flatMap fun c => w.storePixel depth (raster.getD c 0)

/-- The slices of one raster line, in window-list order, the first window of the list at place `position` (R70). -/
def cutLine (windows : List WindowEntry) (ctx : CtxId) (depth line : Nat) (raster : List Nat) :
    Nat → List Nat → List Slice
  | _, [] => []
  | position, n :: rest =>
    let later := cutLine windows ctx depth line raster (position + 1) rest
    match (windowAt windows n).window with
    | none => later
    | some w => if w.keepsLine line then sliceOf ctx position depth line raster w :: later else later

/-- Size of a slice in bytes (R71). -/
def Slice.size (s : Slice) : Nat := s.data.length

end Sys2Proof.Machine
end

