-- ==== Sys2Proof/Machine/Ops.lean ====
section
/-! DEFINITION. The operations that several commands share: timers, rings and the Progress Block, credit accounting,
handing a completion over, and the tests by which the three fetching blocks ask for credit and begin reads
(chapters 8 and 9, R3, R93, R133). -/

namespace Sys2Proof.Machine

open Sys2Proof

/-! ## Timers and counts -/

/-- A timer started now (R54). -/
def Timer.start (now : Stamp) (micros : Nat) : Timer := { started := now, duration := micros }

/-- The Timebase has reached the timer's start plus its duration (R54). -/
def Timer.due (now : Stamp) (t : Timer) : Bool := decide (t.duration ≤ (now - t.started).toNat)

/-- A timer that may be stopped has expired. -/
def isDue (now : Stamp) (t : Option Timer) : Bool := t.any (Timer.due now)

/-- Milliseconds as microseconds (R54). -/
def millis (n : Nat) : Nat := 1000 * n

/-- A count that stays at 65,535 once reached (R10, R27, R76). -/
def satAdd (a b : Nat) : Nat := min (a + b) Config.countLimit

/-! ## Held Setup Block values (R148) -/

/-- Columns of the geometry; 0 while no Setup Block is held. -/
def State.columns (s : State) : Nat := (s.ring.setup.map Setup.columns).getD 0

/-- Lines of the geometry; 0 while no Setup Block is held. -/
def State.lines (s : State) : Nat := (s.ring.setup.map Setup.lines).getD 0

/-- Pixel depth of the geometry; 0 while no Setup Block is held. -/
def State.depth (s : State) : Nat := (s.ring.setup.map Setup.depth).getD 0

/-- Size of the Completion Ring; 0 while no Setup Block is held. -/
def State.cplSize (s : State) : Nat := (s.ring.setup.map fun u => u.completion.size).getD 0

/-- Size of a submission ring; 0 while no Setup Block is held. -/
def State.ringSize (s : State) : RingId → Nat
  | .control => (s.ring.setup.map fun u => u.control.size).getD 0
  | .capture => (s.ring.setup.map fun u => u.capture.size).getD 0
  | .buffer => (s.ring.setup.map fun u => u.buffer.size).getD 0

/-- Head of a submission ring (R145). -/
def State.ringHead (s : State) : RingId → Nat
  | .control => s.ring.ctlHead
  | .capture => s.ring.capHead
  | .buffer => s.ring.bufHead

/-- Tail register of a submission ring (R145). -/
def State.ringTail (s : State) : RingId → Word
  | .control => s.ring.ctlTail
  | .capture => s.ring.capTail
  | .buffer => s.ring.bufTail

/-- The ring is not empty: its head differs from its tail register (R145). -/
def State.ringWaiting (s : State) (r : RingId) : Bool := decide (s.ringHead r ≠ (s.ringTail r).toNat)

/-- The read of a ring in progress, if any (R153). -/
def State.ringRead (s : State) : RingId → Option ReadInProgress
  | .control => s.ring.ctlRead
  | .capture => s.ring.capRead
  | .buffer => s.ring.bufRead

/-- Ring arithmetic is modulo the size (R145). -/
def ringDistance (size : Nat) (start finish : Nat) : Nat := (finish + size - start % size) % size

/-! ## Rings and the Progress Block (R153, R156) -/

/-- Writes the Progress Block with the three heads as they stand (R156). -/
def State.writeProgress (s : State) : State :=
  match s.ring.setup with
  | none => s
  | some u => s.issue (.memory u.progress (progressBytes s.ring.ctlHead s.ring.capHead s.ring.bufHead))

/-- The read of a ring has ended with its record: the head advances by one and the Progress Block is written
(R153, R156). -/
def State.advanceRing (r : RingId) (s : State) : State :=
  let next := (s.ringHead r + 1) % s.ringSize r
  match r with
  | .control => { s with ring := { s.ring with ctlRead := none, ctlHead := next } }.writeProgress
  | .capture => { s with ring := { s.ring with capRead := none, capHead := next } }.writeProgress
  | .buffer => { s with ring := { s.ring with bufRead := none, bufHead := next } }.writeProgress

/-- Host address of a submission ring; 0 while no Setup Block is held (R144, Table 59). -/
def State.ringAddr (s : State) : RingId → Addr
  | .control => (s.ring.setup.map fun u => u.control.addr).getD 0
  | .capture => (s.ring.setup.map fun u => u.capture.addr).getD 0
  | .buffer => (s.ring.setup.map fun u => u.buffer.addr).getD 0

/-- Record size of a submission ring in bytes (Table 58). -/
def recordSize : RingId → Nat
  | .control => 64
  | .capture => 64
  | .buffer => 16

/-- Host address of the record at a ring's head: the ring's address plus the head times the record size (R144, R153). -/
def State.recordAddr (s : State) (r : RingId) : Addr := s.ringAddr r + BitVec.ofNat 64 (recordSize r * s.ringHead r)

/-- A host read of this many bytes at this address, begun now with its 50 ms limit (R154). -/
def State.hostRead (s : State) (addr : Addr) (bytes : Nat) : Option ReadInProgress :=
  some { addr := addr, bytes := bytes, timer := Timer.start s.now Config.hostReadMicros }

/-- The read of the record at a ring's head (R153). -/
def State.recordRead (s : State) (r : RingId) : Option ReadInProgress := s.hostRead (s.recordAddr r) (recordSize r)

/-! ## Contexts of the sequencer -/

/-- The other Frame Context. -/
def other : CtxId → CtxId
  | .c0 => .c1
  | .c1 => .c0

/-- A Frame Context; `none` is FREE (R27). -/
def State.ctx (s : State) : CtxId → Option Frame
  | .c0 => s.seq.ctx0
  | .c1 => s.seq.ctx1

/-- Stores a Frame Context. -/
def State.setCtx (c : CtxId) (f : Option Frame) (s : State) : State :=
  match c with
  | .c0 => { s with seq := { s.seq with ctx0 := f } }
  | .c1 => { s with seq := { s.seq with ctx1 := f } }

/-- The context carries a frame in the phase given. -/
def State.inPhase (s : State) (c : CtxId) (p : Phase) : Bool := (s.ctx c).any fun f => decide (f.phase = p)

/-- Both contexts are FREE. -/
def State.contextsFree (s : State) : Bool := s.seq.ctx0.isNone && s.seq.ctx1.isNone

/-- Changes the frame a context carries, if any. -/
def State.updCtx (c : CtxId) (g : Frame → Frame) (s : State) : State :=
  match s.ctx c with
  | none => s
  | some f => s.setCtx c (some (g f))

/-! ## Credit (R164, R165) -/

/-- Slots a frame's granted credit holds (R30). -/
def heldSlots : Option Frame → Nat
  | none => 0
  | some f => if f.creditHeld then f.slots else 0

/-- A requester's granted and unused credit of one slot. -/
def CreditState.slots : CreditState → Nat
  | .held => 1
  | _ => 0

/-- Reserved slots, by the list of R164. -/
def State.reserved (s : State) : Nat :=
  s.sched.queue.length + s.sched.credit.slots + heldSlots s.seq.ctx0 + heldSlots s.seq.ctx1 + s.engine.credit.slots +
    s.sensor.staged.length

/-- Slots written and not freed (R164). -/
def State.unfreed (s : State) : Nat := ringDistance s.cplSize s.cpl.head.toNat s.cpl.tail

/-- Free credit (R164). -/
def State.freeCredit (s : State) : Nat := s.cplSize - 1 - s.unfreed - s.reserved

/-! ## Handing a completion over (R160, R161, R169) -/

/-- Host address of a Completion Ring slot (R144). -/
def slotAddr (u : Setup) (slot : Nat) : Addr := u.completion.addr + BitVec.ofNat 64 (64 * slot)

/-- The tail and phase after one slot (R160). -/
def nextSlot (size : Nat) (at_ : Nat × Bool) : Nat × Bool :=
  if at_.1 + 1 = size then (0, !at_.2) else (at_.1 + 1, at_.2)

/-- Writes a completion's slots at the tail and advances it; a FRAME_CONT slot is issued before its FRAME slot (R160). -/
def State.writeSlots (u : Setup) (c : Completion) (s : State) : State :=
  let first := (s.cpl.tail, s.cpl.phase)
  let second := nextSlot u.completion.size first
  match c.slots with
  | [a] =>
    { s with cpl := { s.cpl with tail := second.1, phase := second.2 } }.issue
      (.memory (slotAddr u first.1) (slotBytes first.2 a))
  | [a, b] =>
    let third := nextSlot u.completion.size second
    ({ s with cpl := { s.cpl with tail := third.1, phase := third.2 } }.issue
      (.memory (slotAddr u second.1) (slotBytes second.2 b))).issue (.memory (slotAddr u first.1) (slotBytes first.2 a))
  | _ => s

/-- Counts one hand-over under the coalescing count and delay (R169). -/
def State.coalesce (u : Setup) (s : State) : State :=
  if s.cpl.unsignalled + 1 = u.coalesceCount ∨ u.coalesceDelay = 0 then
    { s with cpl := { s.cpl with unsignalled := 0, timer := none } }.raise Causes.onlyCompletion
  else
    { s with
      cpl :=
        { s.cpl with
          unsignalled := s.cpl.unsignalled + 1
          timer := if s.cpl.unsignalled = 0 then some (Timer.start s.now u.coalesceDelay) else s.cpl.timer } }

/-- Hands a completion to the Completion Writer (R161). A hand-over comes only while Setup Block values are held. -/
def State.handOver (c : Completion) (s : State) : State :=
  match s.ring.setup with
  | none => s
  | some u => (s.writeSlots u c).coalesce u

/-! ## The fetching blocks (R3, R93, R133, Table 62) -/

/-- The part state lets the Capture Scheduler fetch (R3). -/
def State.captureMayFetch (s : State) : Bool :=
  decide (s.link.part = .running) || (decide (s.link.part = .draining) && s.sched.flushMark.isSome)

/-- The Capture Scheduler tests R3: in DRAINING with no flush mark it withdraws its request or releases its unused credit
(R166); otherwise it asks for credit, or begins the read its credit is for. -/
def State.captureTest (s : State) : State :=
  if s.link.part = .draining ∧ s.sched.flushMark = none then
    if s.ring.capRead = none then { s with sched := { s.sched with credit := .none } } else s
  else if s.captureMayFetch = true ∧ s.sched.queue.length < Config.queueDepth ∧ s.ringWaiting .capture = true then
    match s.sched.credit with
    | .none => { s with sched := { s.sched with credit := .asked } }
    | .asked => s
    | .held => if s.ring.capRead = none then { s with ring := { s.ring with capRead := s.recordRead .capture } } else s
  else s

/-- The Control Engine tests R133: in IDLE it asks for credit, with its credit held it begins the read. -/
def State.engineTest (s : State) : State :=
  if s.link.part = .running ∧ s.ringWaiting .control = true then
    match s.engine.mode with
    | .idle => { s with engine := { s.engine with mode := .waitCredit, credit := .asked } }
    | .waitCredit =>
      if s.engine.credit = .held ∧ s.ring.ctlRead = none then
        { s with ring := { s.ring with ctlRead := s.recordRead .control } }
      else s
    | .executing => s
  else s

/-- Capacity of the Buffer Cache (R92). -/
def State.cacheCapacity (s : State) : Nat := min Config.cacheDepth (s.ringSize .buffer - 1)

/-- The Buffer Unit tests R93 and begins a read of the Buffer Ring. -/
def State.bufferTest (s : State) : State :=
  if s.link.part = .running ∧ s.ringWaiting .buffer = true ∧ s.bufs.cache.length < s.cacheCapacity ∧
      s.ring.bufRead = none then
    { s with ring := { s.ring with bufRead := s.recordRead .buffer } }
  else s

/-! ## Finishing a control record (R138) -/

/-- The engine posts a record's CONTROL completion, returns to IDLE with no record and no credit, and tests R133 for the
next record. -/
def State.finishRecord (r : ControlResult) (s : State) : State :=
  { s.handOver (.control r) with engine := { mode := .idle, credit := .none, job := none } }.engineTest

end Sys2Proof.Machine
end

