-- ==== Sys2Proof/Machine/Contexts.lean ====
section
/-! DEFINITION. The shared operations of the Frame Contexts and of the Capture Queue: closing a frame, GAP, WAIT_START,
exposure and readout (chapter 2), the active request, stops and the interval timer (chapter 1). -/

namespace Sys2Proof.Machine

open Sys2Proof

/-! ## The active request (R11) -/

/-- The request fields of a VALID entry. -/
def Entry.request (e : Entry) : Option CaptureRequest :=
  match e.form with
  | .valid r => some r
  | _ => none

/-- The fields of the request at the head of the queue, if it is VALID: the request of every frame in a context (R29). -/
def State.request (s : State) : Option CaptureRequest := s.sched.queue.head?.bind Entry.request

/-- The active request where it is VALID and carries no stop mark; any other head is ending at once (R16, R19). -/
def State.liveRequest (s : State) : Option CaptureRequest :=
  s.sched.queue.head?.bind fun e => if e.mark = .none then e.request else none

/-- Changes the head entry, if any. -/
def State.updHead (g : Entry → Entry) (s : State) : State :=
  match s.sched.queue with
  | [] => s
  | e :: rest => { s with sched := { s.sched with queue := g e :: rest } }

/-- The end cause a request-ending outcome gives (R15). -/
def FrameOutcome.endCause : FrameOutcome → Option EndCause
  | .triggerTimeout => some .triggerTimeout
  | .sensorOff => some .sensorOff
  | .sensorLost => some .sensorLost
  | _ => none

/-- The close of a frame with this outcome sets the end cause if the outcome is request-ending and none is set (R15). -/
def State.noteClose (o : FrameOutcome) (s : State) : State :=
  { s with sched := { s.sched with endCause := s.sched.endCause <|> o.endCause } }

/-! ## Closing (R47) -/

/-- A frame that enters CLOSING: an outcome set earlier is kept, its timers are stopped and its request for a return
credit is withdrawn (R47, R96). -/
def Frame.close (o : FrameOutcome) (f : Frame) : Frame :=
  { f with
    phase := .closing
    outcome := some (f.outcome.getD o)
    returnAsked := false
    leadTimer := none
    expTimer := none
    trigTimer := none }

/-- A context's frame closes with an outcome (R47, R15). -/
def State.closeFrame (c : CtxId) (o : FrameOutcome) (s : State) : State :=
  match s.ctx c with
  | none => s
  | some f => (s.setCtx c (some (f.close o))).noteClose (f.outcome.getD o)

/-- Deasserts EXPOSE and STROBE. -/
def State.releaseLines (s : State) : State := { s with seq := { s.seq with expose := false, strobe := false } }

/-! ## Exposure (R39, R40, R43, R44) -/

/-- An expect notice to the Stream Receiver (R77). -/
def State.expect (c : CtxId) (s : State) : State :=
  { s with
    recv :=
      { s.recv with
        state := .expecting
        served := some c
        expected := 0
        timer := some (Timer.start s.now (millis ((s.ring.setup.map Setup.frameTimeout).getD 0))) } }

/-- A context enters EXPOSING (R40). -/
def State.enterExposing (r : CaptureRequest) (c : CtxId) (s : State) : State :=
  let s := s.updCtx c fun f =>
    { f with
      phase := .exposing
      leadTimer := none
      expStart := some s.now
      expTimer := some (Timer.start s.now (if f.flags.shortLevel then Config.shortLevelMicros else r.exposure)) }
  { s with seq := { s.seq with expose := true, strobe := s.seq.strobe || r.strobe } }

/-- The start condition of a context is met: LEAD or EXPOSING (R35, R39). -/
def State.startCondition (r : CaptureRequest) (c : CtxId) (s : State) : State :=
  let s := s.updCtx c fun f => { f with trigTimer := none }
  if r.strobe = true ∧ 0 < r.lead then
    let s := s.updCtx c fun f => { f with phase := .lead, leadTimer := some (Timer.start s.now r.lead) }
    { s with seq := { s.seq with strobe := true } }
  else s.enterExposing r c

/-- A context enters READOUT and the Stream Receiver is told to expect its frame (R44 steps 3 and 4, R49). -/
def State.enterReadout (c : CtxId) (s : State) : State :=
  (s.updCtx c fun f => { f with phase := .readout, endPending := false, expTimer := none }).expect c

/-- The actual exposure is recorded, unless one is already recorded (R44, R49, R51). -/
def Frame.recordActual (now : Stamp) (f : Frame) : Frame :=
  { f with actual := f.actual <|> some (now - f.expStart.getD now) }

/-- The exposure of a context ends (R44). -/
def State.exposureEnd (c : CtxId) (s : State) : State :=
  (s.releaseLines.updCtx c (Frame.recordActual s.now)).enterReadout c

/-- The exposure of a context would end: at once, or deferred while the other context is in READOUT (R41, R43). -/
def State.exposureWouldEnd (c : CtxId) (s : State) : State :=
  if s.inPhase (other c) .readout then
    s.updCtx c fun f => { f with endPending := true, flags := { f.flags with stretched := true } }
  else s.exposureEnd c

/-! ## WAIT_START and GAP (R31 to R33) -/

/-- A context enters WAIT_START (R33). -/
def State.enterWaitStart (r : CaptureRequest) (c : CtxId) (s : State) : State :=
  let pending := s.seq.missed
  let s := s.updCtx c fun f =>
    { f with phase := .waitStart, generation := some s.sensor.generation, missed := satAdd f.missed pending }
  let s := s.updHead fun e => { e with missed := satAdd e.missed pending }
  let s := { s with seq := { s.seq with missed := 0 } }
  if r.source = .software then s.startCondition r c
  else if s.seq.latch = true then
    let s := { s with seq := { s.seq with latch := false } }
    (s.updCtx c fun f => { f with flags := { f.flags with latchedStart := true } }).startCondition r c
  else if r.timeout ≠ 0 then s.updCtx c fun f => { f with trigTimer := some (Timer.start s.now (millis r.timeout)) }
  else s

/-- The first three cases of Table 14 for a context in GAP: it closes, waits for the sensor, or enters WAIT_START. -/
def State.gapAdvance (c : CtxId) (s : State) : State :=
  match s.request with
  | none => s
  | some r =>
    if s.inPhase c .gap then
      match s.sensor.power with
      | .off => s.closeFrame c .sensorOff
      | .settling => s
      | .replaying => s
      | .ready => if s.sensor.staged = [] ∧ s.sensor.flush = none then s.enterWaitStart r c else s
    else s

/-- A context in GAP evaluates (R31): the cases of `gapAdvance`, and with staged entries, no flush in progress and the
other context not in READOUT it asks for a flush (R32). The arbiter takes the request up where the caller runs it. -/
def State.gapEvaluate (c : CtxId) (s : State) : State :=
  let s := s.gapAdvance c
  if s.inPhase c .gap = true ∧ s.sensor.power = .ready ∧ s.sensor.staged ≠ [] ∧ s.sensor.flush = none ∧
      s.inPhase (other c) .readout = false then
    { s with sensor := { s.sensor with flushWaits := true } }
  else s

/-- Both contexts evaluate GAP; at most one is in GAP (R29). -/
def State.gapEvaluateAll (s : State) : State := (s.gapEvaluate .c0).gapEvaluate .c1

/-! ## Readout ends (R45, R47) -/

/-- The outcome of a frame whose readout has ended, by the last four rows of Table 16. -/
def Frame.readoutOutcome (f : Frame) : FrameOutcome :=
  if f.timedOut then .timeout
  else if f.flags.overrun then .overrun
  else if f.flags.sequence then .sequence
  else .good

/-- A context leaves READOUT for CLOSING; a deferred exposure of the other context ends, or the other context evaluates
GAP (R45, R43, R32). -/
def State.readoutEnd (c : CtxId) (s : State) : State :=
  match s.ctx c with
  | none => s
  | some f =>
    if f.phase = .readout then
      let s := s.closeFrame c f.readoutOutcome
      if (s.ctx (other c)).any (fun g => decide (g.phase = .exposing) && g.endPending) then s.exposureEnd (other c)
      else s.gapEvaluate (other c)
    else s

/-! ## Start and end events (R34 to R37, R41, R42) -/

/-- A start event that no context in WAIT_START meets (R37). -/
def State.earlyTrigger (r : CaptureRequest) (s : State) : State :=
  if r.discard = false ∧ s.seq.latch = false then { s with seq := { s.seq with latch := true } }
  else { s with seq := { s.seq with missed := satAdd s.seq.missed 1 } }

/-- A start event of the active request (R35, R37). -/
def State.startEvent (r : CaptureRequest) (s : State) : State :=
  if s.inPhase .c0 .waitStart then s.startCondition r .c0
  else if s.inPhase .c1 .waitStart then s.startCondition r .c1
  else s.earlyTrigger r

/-- An end event of a LEVEL request at one context: it flags SHORT_LEVEL in LEAD and would end an exposure that is not
SHORT_LEVEL and not deferred (R39, R41). -/
def State.endEventAt (c : CtxId) (s : State) : State :=
  match s.ctx c with
  | none => s
  | some f =>
    match f.phase with
    | .lead => s.updCtx c fun f => { f with flags := { f.flags with shortLevel := true } }
    | .exposing => if f.endPending = false ∧ f.flags.shortLevel = false then s.exposureWouldEnd c else s
    | _ => s

/-- An end event of a LEVEL request (R34). At most one context is in LEAD or EXPOSING (R29). -/
def State.endEvent (s : State) : State :=
  if s.inPhase .c0 .lead || s.inPhase .c0 .exposing then s.endEventAt .c0 else s.endEventAt .c1

/-! ## Stops (R22, R48, R49) -/

/-- GRACEFUL at one context (R48). -/
def State.gracefulAt (c : CtxId) (s : State) : State :=
  if s.inPhase c .reserving || s.inPhase c .gap || s.inPhase c .waitStart then s.closeFrame c .stopped else s

/-- ABORT at one context (R49, Table 18). -/
def State.abortAt (c : CtxId) (s : State) : State :=
  match s.ctx c with
  | none => s
  | some f =>
    match f.phase with
    | .reserving | .gap | .waitStart => s.closeFrame c .aborted
    | .lead => { s with seq := { s.seq with strobe := false } }.closeFrame c .aborted
    | .exposing =>
      let s := s.releaseLines.updCtx c fun f =>
        { f.recordActual s.now with
          expTimer := none, outcome := some (f.outcome.getD .aborted), flags := { f.flags with discard := true } }
      if s.inPhase (other c) .readout then s.updCtx c fun f => { f with endPending := true } else s.enterReadout c
    | .readout =>
      s.updCtx c fun f => { f with outcome := some (f.outcome.getD .aborted), flags := { f.flags with discard := true } }
    | .closing => s

/-- The stop mode after a mode is applied (Table 11). -/
def StopMode.apply : StopMode → StopKind → StopMode
  | .none, .graceful => .graceful
  | .none, .abort => .abort
  | .graceful, .graceful => .graceful
  | .graceful, .abort => .abort
  | .abort, _ => .abort

/-- The end cause after a mode is applied (Table 11). -/
def applyEndCause : StopMode → StopKind → Option EndCause → Option EndCause
  | .none, .graceful, cause => some (cause.getD .stopped)
  | .none, .abort, cause => some (cause.getD .aborted)
  | .graceful, .abort, cause => if cause = some .stopped then some .aborted else cause
  | _, _, cause => cause

/-- Applies a stop mode to the active request and passes a change of mode to both contexts (R22, R48, R49). -/
def State.applyStop (k : StopKind) (s : State) : State :=
  let before := s.sched.stopMode
  let s :=
    { s with
      sched :=
        { s.sched with stopMode := before.apply k, endCause := applyEndCause before k s.sched.endCause } }
  if before = before.apply k then s
  else match k with
    | .graceful => (s.gracefulAt .c0).gracefulAt .c1
    | .abort => (s.abortAt .c0).abortAt .c1

/-- Marks a queued entry FLUSHED if it carries no mark (R23). -/
def Entry.flush (e : Entry) : Entry := if e.mark = .none then { e with mark := .flushed } else e

/-- Records the Capture Ring tail register as the flush mark; a mark equal to the head is cleared (R23, R24). -/
def State.recordMark (s : State) : State :=
  let mark := s.ring.capTail.toNat
  { s with sched := { s.sched with flushMark := if mark = s.ring.capHead then none else some mark } }

/-- A STOP of all requests (R23); entry to DRAINING acts so with mode ABORT (R176). -/
def State.stopAllRequests (k : StopKind) (s : State) : State :=
  let s := s.recordMark
  match s.sched.queue with
  | [] => s
  | e :: rest =>
    let s := { s with sched := { s.sched with queue := e :: rest.map Entry.flush } }
    if s.liveRequest.isSome then s.applyStop k else s

/-- Marks STOPPED the oldest entry that a STOP by tag may reach among the entries behind the head (R21). -/
def stopQueued (tag : Word) : List Entry → Option (List Entry)
  | [] => none
  | e :: rest =>
    if e.tag = tag ∧ e.request.isSome = true ∧ e.mark = .none then some ({ e with mark := .stopped } :: rest)
    else (stopQueued tag rest).map (e :: ·)

/-- A STOP by tag: the state after it, or none if no entry is eligible (R21). -/
def State.stopByTag (tag : Word) (k : StopKind) (s : State) : Option State :=
  match s.sched.queue with
  | [] => none
  | e :: rest =>
    if e.tag = tag ∧ s.liveRequest.isSome = true ∧ s.sched.stopMode = .none then some (s.applyStop k)
    else (stopQueued tag rest).map fun rest' => { s with sched := { s.sched with queue := e :: rest' } }

/-! ## The interval timer and request ends (R11, R12, R16 to R18) -/

/-- A context of the request is in RESERVING, GAP or WAIT_START. -/
def State.startWaits (s : State) (c : CtxId) : Bool :=
  s.inPhase c .reserving || s.inPhase c .gap || s.inPhase c .waitStart

/-- The active request can begin no further frame (R12, R13). -/
def State.noFurtherFrame (s : State) : Bool :=
  match s.sched.queue with
  | [] => true
  | e :: _ => match e.request with
    | none => true
    | some r => decide (r.frames ≤ e.begun) || decide (s.sched.stopMode ≠ .none) || s.sched.endCause.isSome

/-- Stops the interval timer when no further frame can begin and no context waits for its start (R12). -/
def State.tidyInterval (s : State) : State :=
  if s.noFurtherFrame && !s.startWaits .c0 && !s.startWaits .c1 then
    { s with sched := { s.sched with interval := none } }
  else s

/-- The first tick of an INTERVAL request: it comes at once, the next is measured from it (R12), and it is early (R37). That it
is taken within the command at which the request becomes active, and not by an INTERVAL_TICK, is log entry 31 (DEDUCED). -/
def State.firstTick (r : CaptureRequest) (s : State) : State :=
  { s with sched := { s.sched with interval := some (Timer.start s.now r.interval) } }.earlyTrigger r

/-- The entry now at the head becomes the active request (R11, R12, R38). With an empty queue the state of an active
request is discarded. -/
def State.becomeActive (s : State) : State :=
  let s := { s with sched := { s.sched with stopMode := .none, endCause := none, interval := none } }
  match s.sched.queue with
  | [] => s
  | _ :: _ =>
    let s := { s with seq := { s.seq with latch := false, missed := 0 } }
    match s.liveRequest with
    | none => s
    | some r => if r.source = .interval then s.firstTick r else s

/-- Adds to or takes from the reference counts of the windows a request names (R8, R18). -/
def countRefs (list : List Nat) (g : Nat → Nat) (windows : List WindowEntry) : List WindowEntry :=
  list.foldl (fun ws n => ws.set n { windowAt ws n with refs := g (windowAt ws n).refs }) windows

/-- The active request ends (R16). -/
def State.requestEnds (s : State) : Bool :=
  match s.sched.queue with
  | [] => false
  | e :: _ => match e.form with
    | .rejected _ => true
    | .flushedAtFetch => true
    | .valid r =>
      decide (e.mark ≠ .none) ||
        (s.contextsFree &&
          (decide (e.begun = r.frames) || decide (s.sched.stopMode ≠ .none) || s.sched.endCause.isSome))

/-- The final status an end cause gives (Table 10). -/
def EndCause.final : EndCause → FinalStatus
  | .stopped => .stopped
  | .aborted => .aborted
  | .triggerTimeout => .triggerTimeout
  | .sensorOff => .sensorOff
  | .sensorLost => .sensorLost

/-- Final status and detail of a REQUEST_END: the first row of Table 10 that the request meets (R17). -/
def finalStatus (e : Entry) (cause : Option EndCause) : FinalStatus × Detail :=
  match e.form with
  | .rejected d => (.badRequest, d)
  | _ => match e.mark with
    | .flushed => (.flushed, .none)
    | .stopped => (.stopped, .none)
    | .none => ((cause.map EndCause.final).getD .complete, .none)

end Sys2Proof.Machine
end

