-- ==== Sys2Proof/Machine/Sensor.lean ====
section
/-! DEFINITION. The shared operations of the Sensor Link (chapter 6): the Settings Mirror, the port and its arbiter, the
flush of the Staged Settings List, the replay and sensor power. -/

namespace Sys2Proof.Machine

open Sys2Proof

/-! ## The Settings Mirror (R111, R112) -/

/-- Addresses rise strictly through the listed entries, and all lie below 512: the mirror's one form. -/
def mirrorWf : List (Nat × MirrorEntry) → Bool
  | [] => true
  | [a] => decide (a.1 < Config.sensorAddresses)
  | a :: b :: rest => decide (a.1 < b.1) && mirrorWf (b :: rest)

/-- The entry of an address; `none` is ABSENT (R111). -/
def mirrorAt (a : Nat) : List (Nat × MirrorEntry) → Option MirrorEntry
  | [] => none
  | (b, e) :: rest => if b = a then some e else mirrorAt a rest

/-- Sets the entry of an address, keeping the order. -/
def mirrorSet (a : Nat) (e : MirrorEntry) : List (Nat × MirrorEntry) → List (Nat × MirrorEntry)
  | [] => [(a, e)]
  | (b, f) :: rest =>
    if a < b then (a, e) :: (b, f) :: rest
    else if a = b then (a, e) :: rest
    else (b, f) :: mirrorSet a e rest

/-- Makes the entry of an address ABSENT. -/
def mirrorErase (a : Nat) (m : List (Nat × MirrorEntry)) : List (Nat × MirrorEntry) := m.filter fun p => p.1 ≠ a

/-- Makes every CURRENT entry STALE (R126 step 4). -/
def mirrorStale (m : List (Nat × MirrorEntry)) : List (Nat × MirrorEntry) :=
  m.map fun p => (p.1, { p.2 with stale := true })

/-- Makes every STALE entry ABSENT (R124 step 1). -/
def mirrorForget (m : List (Nat × MirrorEntry)) : List (Nat × MirrorEntry) := m.filter fun p => !p.2.stale

/-- The STALE entry of the lowest address not below `start` (R125). -/
def nextStale (start : Nat) (m : List (Nat × MirrorEntry)) : Option (Nat × MirrorEntry) :=
  m.find? fun p => p.2.stale && decide (start ≤ p.1)

/-- A successful WRITE makes its address CURRENT with the value written (R112). -/
def State.recordWrite (address value : Half) (s : State) : State :=
  { s with
    sensor := { s.sensor with mirror := mirrorSet address.toNat { stale := false, value := value } s.sensor.mirror } }

/-! ## The port (R109) -/

/-- A transaction begins: its request is sent and the acknowledge timer is started (R109). -/
def State.startTransaction (owner : PortOwner) (op : PortOp) (s : State) : State :=
  { s with
    sensor := { s.sensor with port := some { owner := owner, op := op, timer := Timer.start s.now Config.ackMicros } } }

/-- The port becomes free. -/
def State.freePort (s : State) : State := { s with sensor := { s.sensor with port := none } }

/-! ## Staged settings (R116 to R121) -/

/-- A context is in a state that holds flushes back (R116). -/
def State.blocksFlush (s : State) (c : CtxId) : Bool :=
  s.inPhase c .waitStart || s.inPhase c .lead || s.inPhase c .exposing || s.inPhase c .readout

/-- The flush condition (R116). -/
def State.flushCondition (s : State) : Bool :=
  !s.blocksFlush .c0 && !s.blocksFlush .c1 && decide (s.sensor.power = .ready) && s.sensor.flush.isNone

/-- The flush has taken one more entry (R117). -/
def Flush.takeOne (f : Flush) : Flush := { f with taken := f.taken + 1 }

/-- The front entry is marked IN_PROGRESS, counted as taken and written on the port (R117 step 1). -/
def State.writeFront (s : State) : State :=
  match s.sensor.staged with
  | [] => s
  | e :: rest =>
    { s with
      sensor :=
        { s.sensor with
          staged := { e with inProgress := true } :: rest
          flush := s.sensor.flush.map Flush.takeOne } }.startTransaction .flush
      (.write e.address e.value)

/-- A flush begins: it fixes its generation and writes the front entry (R116, R117). -/
def State.beginFlush (s : State) : State :=
  { s with
    sensor := { s.sensor with flush := some { generation := s.sensor.generation + 1, taken := 0 } } }.writeFront

/-- The completion of a staged entry (R117, R121, R128, R140). -/
def stagedResult (e : Staged) (status : ControlStatus) (generation : Option Word) : ControlResult :=
  { kind := kindSensorWrite, tag := e.tag, status := status, generation := generation }

/-- The generation takes the value fixed at the flush's beginning if it took an entry, and the flush is over
(R118). -/
def State.closeFlush (s : State) : State :=
  match s.sensor.flush with
  | none => s
  | some f =>
    { s with
      sensor :=
        { s.sensor with flush := none, generation := if f.taken = 0 then s.sensor.generation else f.generation } }

/-- Every WAITING entry is removed and completes DISCARDED, in list order; an IN_PROGRESS entry stays (R121). -/
def State.discardWaiting (s : State) : State :=
  let dropped := s.sensor.staged.filter fun e => !e.inProgress
  let s := { s with sensor := { s.sensor with staged := s.sensor.staged.filter Staged.inProgress } }
  dropped.foldl (fun s e => s.handOver (.control (stagedResult e .discarded none))) s

/-- A waiting FLUSH_STAGED completes when the list is empty and no flush is in progress; otherwise it asks for a flush
when the flush condition holds (R120). -/
def State.checkFlushRecord (s : State) : State :=
  match s.engine.job with
  | some { tag := tag, work := .flush } =>
    if s.sensor.staged = [] ∧ s.sensor.flush = none then
      s.finishRecord { kind := kindFlushStaged, tag := tag, status := .done }
    else if s.sensor.staged ≠ [] ∧ s.flushCondition = true then
      { s with sensor := { s.sensor with flushWaits := true } }
    else s
  | _ => s

/-! ## READY and the replay (R124, R125) -/

/-- The power state is READY for the record in hand: an ON or CYCLE completes, and a WRITE or READ that waited asks for
the port (R113, R124). -/
def State.readyForRecord (s : State) : State :=
  match s.engine.job with
  | some { tag := tag, work := .power _ _ true } =>
    s.finishRecord { kind := kindSensorPower, tag := tag, status := .already }
  | some { tag := tag, work := .power _ _ false } =>
    s.finishRecord
      { kind := kindSensorPower, tag := tag, status := .done, replayed := s.sensor.replayed, failed := s.sensor.failed }
  | some { tag := _, work := .write _ _ } => { s with sensor := { s.sensor with engineWaits := true } }
  | some { tag := _, work := .read _ } => { s with sensor := { s.sensor with engineWaits := true } }
  | some { tag := _, work := .flush } => s
  | none => s

/-- No replay is under way: Table 49 gives no position and no counts then, and the fields that hold them are 0 (R130;
DESIGN CHOICE, log entry 17). -/
def State.forgetReplay (s : State) : State :=
  { s with sensor := { s.sensor with replayPos := 0, replayed := 0, failed := 0 } }

/-- The power state becomes READY: contexts in GAP evaluate, and the record in hand goes on with the replay's counts
(R123 to R125). The caller runs the arbiter. -/
def State.becomeReady (s : State) : State :=
  ({ s with sensor := { s.sensor with power := .ready } }.gapEvaluateAll).readyForRecord.forgetReplay

/-- The replay writes its next STALE entry, or ends (R125). -/
def State.replayNext (s : State) : State :=
  match nextStale s.sensor.replayPos s.sensor.mirror with
  | some (a, e) =>
    { s with sensor := { s.sensor with replayPos := a + 1 } }.startTransaction .replay
      (.write (BitVec.ofNat 16 a) e.value)
  | none => s.freePort.becomeReady

/-! ## The arbiter (R110) -/

/-- The replay is granted a free port. -/
def State.grantReplay (s : State) : State :=
  if s.sensor.port = none ∧ s.sensor.replayWaits = true then
    { s with sensor := { s.sensor with replayWaits := false } }.replayNext
  else s

/-- The flush is granted a free port: it begins if its condition holds and the list is not empty; otherwise the
requesters are told that it has ended with no entry taken (R116). -/
def State.grantFlush (s : State) : State :=
  if s.sensor.port = none ∧ s.sensor.flushWaits = true then
    let s := { s with sensor := { s.sensor with flushWaits := false } }
    if s.flushCondition = true ∧ s.sensor.staged ≠ [] then s.beginFlush
    else ((s.gapAdvance .c0).gapAdvance .c1).checkFlushRecord
  else s

/-- The Control Engine is granted a free port for one transaction (R113). -/
def State.grantEngine (s : State) : State :=
  if s.sensor.port = none ∧ s.sensor.engineWaits = true then
    let s := { s with sensor := { s.sensor with engineWaits := false } }
    match s.engine.job with
    | some { tag := _, work := .write a v } => s.startTransaction .engine (.write a v)
    | some { tag := _, work := .read a } => s.startTransaction .engine (.read a)
    | _ => s
  else s

/-- The arbiter grants a free port to the first waiting requester: replay, flush, Control Engine (R110). -/
def State.arbitrate (s : State) : State := s.grantReplay.grantFlush.grantEngine

/-- What follows a change of a Frame Context, of the power state or of the staged list: a waiting FLUSH_STAGED is tested
(R120), the port arbiter runs (R110), and the interval timer is stopped where R12 says so. -/
def State.follow (s : State) : State := s.checkFlushRecord.arbitrate.tidyInterval

/-! ## The end of a transaction (R109) -/

/-- A WRITE of the replay has ended (R125). -/
def State.replayWritten (ok : Bool) (address value : Half) (s : State) : State :=
  let s :=
    if ok then
      let s := s.recordWrite address value
      { s with sensor := { s.sensor with replayed := s.sensor.replayed + 1 } }
    else
      { s with
        sensor := { s.sensor with mirror := mirrorErase address.toNat s.sensor.mirror, failed := s.sensor.failed + 1 } }
  s.replayNext

/-- A flush ends: generation, port, and the flush-end event at contexts in GAP (R118). -/
def State.endFlush (s : State) : State := s.closeFlush.freePort.gapEvaluateAll

/-- A WRITE of the flush has ended: its entry is removed and completes, and the flush goes on or ends (R117). With no entry
IN_PROGRESS, which a halt removed, the flush ends (R130). -/
def State.entryWritten (ok : Bool) (address value : Half) (s : State) : State :=
  let s := if ok then s.recordWrite address value else s
  match s.sensor.staged with
  | [] => s.endFlush
  | e :: rest =>
    if e.inProgress then
      let generation := s.sensor.flush.map Flush.generation
      let s := { s with sensor := { s.sensor with staged := rest } }
      let s := s.handOver (.control
        (stagedResult e (if ok then .applied else .portTimeout) (if ok then generation else none)))
      if rest = [] then s.endFlush else s.writeFront
    else s.endFlush

/-- The generation takes the value that the WRITE of a flush left behind carries, as that WRITE ends (R118, R130; DEDUCED,
log entry 29). -/
def State.closeLeftFlush (s : State) : State :=
  match s.sensor.port.map Transaction.owner with
  | some (.leftFlush g) => { s with sensor := { s.sensor with generation := g } }
  | _ => s

/-- The WRITE of a flush that a halt left behind has ended: a successful one is recorded, and the generation advances
(R118, R130). -/
def State.leftFlushWritten (ok : Bool) (address value : Half) (s : State) : State :=
  let s := if ok then s.recordWrite address value else s
  s.closeLeftFlush.freePort

/-- A transaction of the Control Engine has ended: the record completes (R113). -/
def State.recordTransacted (ok : Bool) (op : PortOp) (value : Half) (s : State) : State :=
  let s := s.freePort
  let status : ControlStatus := if ok then .done else .portTimeout
  match s.engine.job with
  | none => s
  | some j =>
    match op with
    | .write a v =>
      let s := if ok then s.recordWrite a v else s
      s.finishRecord { kind := kindSensorWrite, tag := j.tag, status := status }
    | .read _ =>
      s.finishRecord { kind := kindSensorRead, tag := j.tag, status := status, read := if ok then value else 0 }

/-- A transaction whose record a halt cleared has ended: a successful WRITE is recorded and nothing is reported (R130). -/
def State.clearedTransacted (ok : Bool) (op : PortOp) (s : State) : State :=
  let s := s.freePort
  match op with
  | .write a v => if ok then s.recordWrite a v else s
  | .read _ => s

/-- The transaction in progress ends, by acknowledge or by timeout, and is reported to its owner (R109). -/
def State.transactionEnds (ok : Bool) (value : Half) (s : State) : State :=
  match s.sensor.port with
  | none => s
  | some t =>
    match t.owner, t.op with
    | .replay, .write a v => (s.replayWritten ok a v).follow
    | .flush, .write a v => (s.entryWritten ok a v).follow
    | .engine, op => (s.recordTransacted ok op value).follow
    | .cleared, op => (s.clearedTransacted ok op).follow
    | .leftFlush _, .write a v => (s.leftFlushWritten ok a v).follow
    | _, .read _ => s.freePort.follow

/-! ## Sensor power (R126 to R128) -/

/-- A power-off notice at one context (R51, Table 19). -/
def State.powerOffAt (c : CtxId) (s : State) : State :=
  match s.ctx c with
  | none => s
  | some f =>
    match f.phase with
    | .reserving | .closing => s
    | .gap => s.closeFrame c .sensorOff
    | .waitStart => s.closeFrame c .sensorLost
    | .lead => { s with seq := { s.seq with strobe := false } }.closeFrame c .sensorLost
    | .exposing => (s.releaseLines.updCtx c (Frame.recordActual s.now)).closeFrame c .sensorLost
    | .readout => s.closeFrame c .sensorLost

/-- The power-off notice at the Stream Receiver (R88). -/
def State.receiverOff (s : State) : State :=
  match s.recv.state with
  | .idle => s
  | _ => { s with recv := { s.recv with state := .idle, served := none, timer := none } }

/-- The power-off notice (R126 step 1). The spec orders the two contexts in no way: where both carry a frame the order is a
free value (DESIGN CHOICE, log entry 7). -/
def State.powerOffNotice (s : State) : State :=
  let s' :=
    if s.seq.ctx0.isSome && s.seq.ctx1.isSome && !Config.noticeZeroFirst s.free then (s.powerOffAt .c1).powerOffAt .c0
    else (s.powerOffAt .c0).powerOffAt .c1
  { s' with free := s.free + 1 }.receiverOff

/-- The removal of power ends the port's work (R128). A transaction left on the port by a halt is cut off too, and the
generation of a flush left behind stands then (log entries 11 and 29). -/
def State.cutPort (s : State) : State :=
  let s := s.closeLeftFlush
  let s := { s.freePort with sensor := { s.freePort.sensor with replayWaits := false } }
  match s.sensor.flush with
  | none => s
  | some _ =>
    match s.sensor.staged with
    | e :: rest =>
      if e.inProgress then
        ({ s with sensor := { s.sensor with staged := rest } }.handOver
          (.control (stagedResult e .sensorOff none))).closeFlush
      else s.closeFlush
    | [] => s.closeFlush

/-- Steps 1 to 5 of R126: power is removed from a sensor that is not OFF. -/
def State.removePower (s : State) : State :=
  let s := s.powerOffNotice
  let s := { s with sensor := { s.sensor with settle := none } }.cutPort.forgetReplay
  { s with
    sensor := { s.sensor with mirror := mirrorStale s.sensor.mirror, enableOut := false, power := .off } }

/-- Steps 1 and 2 of R124: an ON from OFF, with the record's replay flag. -/
def State.applyPower (replay : Bool) (s : State) : State :=
  { s with
    sensor :=
      { s.sensor with
        mirror := if replay then s.sensor.mirror else mirrorForget s.sensor.mirror
        enableOut := true
        power := .settling
        settle := some (Timer.start s.now (millis ((s.ring.setup.map Setup.settleTime).getD 0)))
        replayFlag := replay
        replayPos := 0
        replayed := 0
        failed := 0 } }

end Sys2Proof.Machine
end

