-- ==== Sys2Proof/Machine/Parts.lean ====
section
/-! DEFINITION. The part states (chapter 10): entry to STARTING, RUNNING, DRAINING, HALTED and DISABLED, the resets, and
what each does to every block. -/

namespace Sys2Proof.Machine

open Sys2Proof

/-! ## A slice write cut off (R107, R180) -/

/-- The oldest slice's write is cut off: a number of its bytes that the spec leaves open stands on the Host Link, and no
further byte is issued (DESIGN CHOICE, log entry 6). -/
def State.cutOffWrite (s : State) : State :=
  match s.store.slices with
  | [] => s
  | sl :: _ =>
    let n := Config.cutOffBytes s.free % sl.size
    let s := { s with free := s.free + 1 }
    match (s.ctx sl.ctx).bind fun f => (f.assignments[sl.position]?).bind Assignment.buffer with
    | none => s
    | some b =>
      if n = 0 then s else s.issue (.memory (b.addr + BitVec.ofNat 64 sl.offset) (sl.data.take n))

/-! ## HALTED (R178) -/

/-- A flush entry's transaction and the record's transaction run on after a halt; the latter has lost its record (R130). -/
def Transaction.afterHalt (t : Transaction) : Transaction :=
  match t.owner with
  | .engine => { t with owner := .cleared }
  | _ => t

/-- A Window Table entry with reference count 0 (R73). -/
def WindowEntry.unpin (w : WindowEntry) : WindowEntry := { w with refs := 0 }

/-- Entry to HALTED (R178): cause and detail are recorded, HALT is raised, and each block clears its state as Tables 12,
20, 28, 35, 42, 49, 57, 63 and 69 say. -/
def State.enterHalted (cause : HaltCause) (detail : Detail) (s : State) : State :=
  let s := s.cutOffWrite
  let s :=
    { s with
      link := { s.link with part := .halted, haltCause := cause, haltDetail := detail }
      ring := { s.ring with setupRead := none, ctlRead := none, capRead := none, bufRead := none }
      engine := { mode := .idle, credit := .none, job := none }
      sched :=
        { queue := [], stopMode := .none, endCause := none, interval := none, flushMark := none, credit := .none }
      seq :=
        { s.seq with
          ctx0 := none, ctx1 := none, next := .c0, latch := false, missed := 0, expose := false, strobe := false }
      recv := { s.recv with state := .idle, served := none, timer := none }
      cutter :=
        { s.cutter with windows := s.cutter.windows.map WindowEntry.unpin, inHand := [] }
      store := { slices := [] }
      bufs := { cache := [] }
      sensor :=
        { s.sensor with
          staged := [], engineWaits := false, port := s.sensor.port.map Transaction.afterHalt }
      cpl := { s.cpl with unsignalled := 0, timer := none } }
  s.raise Causes.onlyHalt

/-- The halt cause and detail of a host read error (R146, R154). -/
def haltOf : HostRead → HaltCause × Detail
  | .setup => (.setupRead, .none)
  | .ring .control => (.fetchRead, .controlRing)
  | .ring .capture => (.fetchRead, .captureRing)
  | .ring .buffer => (.fetchRead, .bufferRing)

/-- The host read in progress, if any. -/
def State.readInProgress (s : State) : HostRead → Option ReadInProgress
  | .setup => s.ring.setupRead
  | .ring r => s.ringRead r

/-- The 50 ms limit of a host read in progress has passed (R154). -/
def State.readDue (s : State) (r : HostRead) : Bool := isDue s.now ((s.readInProgress r).map ReadInProgress.timer)

/-- A host read in progress ends in a host read error; an error for no read in progress is discarded (R154, R155). -/
def State.readFails (r : HostRead) (s : State) : State :=
  if (s.readInProgress r).isSome then s.enterHalted (haltOf r).1 (haltOf r).2 else s

/-! ## STARTING (R158, R174) -/

/-- The address of the Setup Block: the two SETUP_ADDR registers together, high word and low word (R146). -/
def State.setupAddr (s : State) : Addr := s.link.setupHi ++ s.link.setupLo

/-- A flush whose WRITE a halt left on the port is no longer in progress after entry to STARTING; the WRITE is kept, with
the generation that stands at its end (R130, Table 49; DEDUCED, log entry 29). -/
def Transaction.leaveFlush (flush : Option Flush) (t : Transaction) : Transaction :=
  match t.owner, flush with
  | .flush, some f => { t with owner := .leftFlush f.generation }
  | _, _ => t

/-- Entry to STARTING (R158, R174 and the last column of Tables 12 to 69), and the read of the 64 bytes of the Setup Block,
or the halt for a SETUP_ADDR that is not a multiple of 64 (R146). A flush that a halt left behind is no longer in progress,
and its transaction goes on (R130, R131). -/
def State.enterStarting (s : State) : State :=
  let s :=
    if s.cpl.unsignalled ≠ 0 then s.raise Causes.onlyCompletion else s
  let s :=
    { s with
      link := { s.link with part := .starting, haltCause := .none, haltDetail := .none }
      ring :=
        { s.ring with
          ctlHead := 0, capHead := 0, bufHead := 0, setup := none, setupRead := none, ctlRead := none, capRead := none,
          bufRead := none }
      engine := { mode := .idle, credit := .none, job := none }
      sched :=
        { queue := [], stopMode := .none, endCause := none, interval := none, flushMark := none, credit := .none }
      seq :=
        { s.seq with
          ctx0 := none, ctx1 := none, next := .c0, latch := false, missed := 0, expose := false, strobe := false }
      recv := { s.recv with state := .idle, served := none, timer := none, stray := 0 }
      cutter := { s.cutter with inHand := [] }
      store := { slices := [] }
      bufs := { cache := [] }
      sensor :=
        { s.sensor with flush := none, port := s.sensor.port.map (Transaction.leaveFlush s.sensor.flush) }
      cpl := { s.cpl with tail := 0, phase := true, head := 0, unsignalled := 0, timer := none } }
  if s.link.setupLo.toNat % 64 = 0 then { s with ring := { s.ring with setupRead := s.hostRead s.setupAddr 64 } }
  else s.enterHalted .setupInvalid .setupAddress

/-! ## DISABLED (R152, R177, R179) -/

/-- Entry to DISABLED from DRAINING or HALTED: the three tail registers are set to 0 (R152). -/
def State.enterDisabled (s : State) : State :=
  { s with
    link := { s.link with part := .disabled }
    ring := { s.ring with ctlTail := 0, capTail := 0, bufTail := 0 } }

/-- The Sensor Link at the end of a drain, as Table 49 gives it: the port free, no requester waiting for it, no flush in
progress, no replay position and no counts; the power state stays. A replay's WRITE, or a transaction that a halt left
behind, that still holds the port is cut off (R131; DESIGN CHOICE, log entry 30). -/
def State.drainPort (s : State) : State :=
  let s := s.cutPort.forgetReplay
  { s with sensor := { s.sensor with flushWaits := false, engineWaits := false } }

/-- Every condition of R177 holds. -/
def State.drained (s : State) : Bool :=
  decide (s.link.part = .draining) && s.sched.queue.isEmpty && s.sched.flushMark.isNone && s.contextsFree &&
    s.bufs.cache.isEmpty && s.sensor.staged.isEmpty && decide (s.engine.mode = .idle) &&
    decide (s.engine.credit = .none) && decide (s.sched.credit = .none) && decide (s.reserved = 0) &&
    s.ring.ctlRead.isNone && s.ring.capRead.isNone && s.ring.bufRead.isNone

/-! ## DRAINING (R176) -/

/-- The Control Engine at entry to DRAINING: a waiting request is withdrawn, a credit whose read has not begun is released
(R142). -/
def State.engineDrain (s : State) : State :=
  if s.engine.mode = .waitCredit ∧ s.ring.ctlRead = none then
    { s with engine := { s.engine with mode := .idle, credit := .none } }
  else s

/-- Entry to DRAINING at each block (R176, Table 71). It is an event at each block, and the spec does not order them: the
Capture Scheduler and the contexts take it first, then the Sensor Link, then the Control Engine, so that ABORT closes a
context in GAP before the staged list is empty (DESIGN CHOICE, log entry 32). -/
def State.enterDraining (s : State) : State :=
  let s := { s with link := { s.link with part := .draining } }
  let s := s.stopAllRequests .abort
  let s := s.discardWaiting
  s.engineDrain.captureTest.follow

/-! ## RUNNING (R149, R175) -/

/-- A tail register checked against its ring's size: set to 0 if it is not below (R149 step 2). -/
def clampTail (size : Nat) (tail : Word) : Word := if tail.toNat < size then tail else 0

/-- A valid Setup Block is taken up: held values, tail registers, Progress Block, and RUNNING or DRAINING by Enable
(R149, R175). -/
def State.takeSetup (u : Setup) (s : State) : State :=
  let bad :=
    decide (u.control.size ≤ s.ring.ctlTail.toNat) || decide (u.capture.size ≤ s.ring.capTail.toNat) ||
      decide (u.buffer.size ≤ s.ring.bufTail.toNat)
  let s :=
    { s with
      ring :=
        { s.ring with
          setup := some u
          setupRead := none
          ctlTail := clampTail u.control.size s.ring.ctlTail
          capTail := clampTail u.capture.size s.ring.capTail
          bufTail := clampTail u.buffer.size s.ring.bufTail } }
  let s := if bad then s.raise Causes.onlyBadIndex else s
  let s := s.writeProgress
  if s.link.enable then
    { s with link := { s.link with part := .running } }.engineTest.captureTest.bufferTest
  else s.enterDraining

/-! ## The resets (R180) -/

/-- A part reset: every block at its power-on values (R180). What was issued on the Host Link stands, an open number of
bytes of a slice write under way with it (DESIGN CHOICE, log entry 6). PartReset alone keeps the message interrupt
enable. `pin` is the level at the TRIGGER pin (R185). -/
def State.partReset (keepConfig : Bool) (pin : Level) (s : State) : State :=
  let cut := s.cutOffWrite
  { State.reset with
    link := { State.reset.link with msi := keepConfig && s.link.msi, issued := cut.link.issued }
    seq := { State.reset.seq with trigger := pin, pin := pin }
    free := cut.free
    pending := s.pending }

end Sys2Proof.Machine
end

