-- ==== Sys2Proof/Machine/Grants.lean ====
section
/-! DEFINITION. Credit requests and grants (R165), the assignment of buffers to a reserving frame (R95 to R97) and the
returns of buffer entries (R96, R106). -/

namespace Sys2Proof.Machine

open Sys2Proof

/-! ## Requests (R165) -/

/-- The four credit requesters (Table 66). -/
inductive Requester where
  | capture
  | sequencer
  | buffer
  | engine
deriving DecidableEq, Repr

/-- The requesters in grant order (Table 66). -/
def grantOrder : List Requester := [.capture, .sequencer, .buffer, .engine]

/-- The slots a context's waiting request asks for: its frame credit in RESERVING, or in CLOSING when it closed without
one (R30, R46), or one slot for a return (R96). -/
def frameRequest : Option Frame → Option Nat
  | none => none
  | some f =>
    if f.creditHeld = false ∧ (f.phase = .reserving ∨ f.phase = .closing) then some f.slots
    else if f.returnAsked then some 1
    else none

/-- The context whose request the Exposure Sequencer has waiting; at most one exists (R165). -/
def State.requestingContext (s : State) : Option (CtxId × Nat) :=
  match frameRequest s.seq.ctx0 with
  | some n => some (.c0, n)
  | none => (frameRequest s.seq.ctx1).map fun n => (.c1, n)

/-- The slots a requester's waiting request asks for (R165). -/
def State.waitingRequest (s : State) : Requester → Option Nat
  | .capture => if s.sched.credit = .asked then some 1 else none
  | .sequencer => s.requestingContext.map Prod.snd
  | .buffer => if s.link.part = .draining ∧ s.bufs.cache ≠ [] then some 1 else none
  | .engine => if s.engine.credit = .asked then some 1 else none

/-! ## Buffers for the windows (R95, R97) -/

/-- What ends the serving of assignments: every one has a buffer, the cache is empty, or the front entry is to be
returned. -/
inductive Served where
  | allServed
  | cacheEmpty
  | returnFront
deriving DecidableEq, Repr

/-- Serves assignments in list order from the front of the cache (Table 38). -/
def serve : List Assignment → List CacheEntry → List Assignment × List CacheEntry × Served
  | [], cache => ([], cache, .allServed)
  | a :: rest, cache =>
    if a.buffer.isSome then
      let r := serve rest cache
      (a :: r.1, r.2)
    else match cache with
      | [] => (a :: rest, [], .cacheEmpty)
      | e :: more =>
        if e.valid = false ∨ e.length < a.byteSize then (a :: rest, e :: more, .returnFront)
        else
          let r := serve rest more
          ({ a with buffer := some { tag := e.tag, addr := e.addr, length := e.length } } :: r.1, r.2)

/-- A context in RESERVING that holds its credit serves its assignments and goes on as R95 and R97 say. -/
def State.assignBuffers (c : CtxId) (s : State) : State :=
  match s.ctx c with
  | none => s
  | some f =>
    let r := serve f.assignments s.bufs.cache
    let s := { s with bufs := { s.bufs with cache := r.2.1 } }
    let s := s.updCtx c fun f => { f with assignments := r.1 }
    let s := match r.2.2 with
      | .allServed => (s.updCtx c fun f => { f with phase := .gap }).gapEvaluate c
      | .cacheEmpty => if s.request.any CaptureRequest.skip then s.closeFrame c .skipped else s
      | .returnFront => s.updCtx c fun f => { f with returnAsked := true }
    s.bufferTest

/-- The byte size of a window of the table at the current depth (R66). -/
def State.windowBytes (s : State) (n : Nat) : Nat :=
  ((windowAt s.cutter.windows n).window.map fun w => w.byteSize s.depth).getD 0

/-- The context computes the byte size of each of its windows (R95). -/
def State.measure (c : CtxId) (s : State) : State :=
  s.updCtx c fun f =>
    { f with assignments := f.assignments.map fun a => { a with byteSize := s.windowBytes a.window } }

/-- The reason for which an examined entry is returned (Table 38). -/
def CacheEntry.refusal (e : CacheEntry) : ReturnReason := if e.valid then .short else .badBuffer

/-- The front entry leaves the cache with a BUFFER_RETURN (R96, R106). -/
def State.returnFront (reason : CacheEntry → ReturnReason) (s : State) : State :=
  match s.bufs.cache with
  | [] => s
  | e :: rest =>
    ({ s with bufs := { s.bufs with cache := rest } }.handOver (.bufferReturn e.tag (reason e))).bufferTest

/-- A context goes on after its grant: with its frame credit it measures its windows and serves them, or waits in CLOSING;
with a return credit it returns the front entry and serves on (R30, R46, R95, R96). -/
def State.grantFrame (c : CtxId) (s : State) : State :=
  match s.ctx c with
  | none => s
  | some f =>
    if f.returnAsked = true ∧ f.creditHeld = true then
      ((s.updCtx c fun f => { f with returnAsked := false }).returnFront CacheEntry.refusal).assignBuffers c
    else
      let s := s.updCtx c fun f => { f with creditHeld := true }
      if f.phase = .reserving then (s.measure c).assignBuffers c else s

/-- The reason for which a drain returns an entry (R106). -/
def CacheEntry.drainReason (e : CacheEntry) : ReturnReason := if e.valid then .unused else .badBuffer

/-- A grant is an event at its requester, which goes on under its own rules (R165). -/
def State.grant (r : Requester) (s : State) : State :=
  match r with
  | .capture => { s with sched := { s.sched with credit := .held } }.captureTest
  | .sequencer =>
    match s.requestingContext with
    | none => s
    | some (c, _) => s.grantFrame c
  | .buffer => s.returnFront CacheEntry.drainReason
  | .engine => { s with engine := { s.engine with credit := .held } }.engineTest

/-- The Completion Writer considers the waiting requests in order: it grants while free credit covers them and stops at
the first that it does not cover (R165). -/
def grantPass : List Requester → State → State
  | [], s => s
  | r :: rest, s =>
    match s.waitingRequest r with
    | none => grantPass rest s
    | some n => if n ≤ s.freeCredit then grantPass rest (s.grant r) else s

/-- The first waiting request in grant order. -/
def State.firstRequest (s : State) : Option (Requester × Nat) :=
  grantOrder.findSome? fun r => (s.waitingRequest r).map fun n => (r, n)

/-- Free credit covers the first waiting request, so that a grant is due (R165). -/
def State.grantDue (s : State) : Bool := s.firstRequest.any fun p => decide (p.2 ≤ s.freeCredit)

end Sys2Proof.Machine
end

