-- ==== Sys2Proof/Machine/Control.lean ====
section
/-! DEFINITION. The control-record commands: each is the end of a Control Ring read with that record, its checks, its
dispatch and, where it finishes at once, its completion (chapter 7, R133 to R139). -/

namespace Sys2Proof.Machine

open Sys2Proof

/-- The read of the Control Ring ends with a record: the head advances, the Progress Block is written and the engine enters
EXECUTING, where `f` carries the record out. A record for no read in progress is discarded (R133, R143, R155). -/
def State.takeRecord (f : State → State) (s : State) : State :=
  match s.ring.ctlRead with
  | none => s
  | some _ =>
    let s := s.advanceRing .control
    f { s with engine := { s.engine with mode := .executing } }

/-- MARK (R136). -/
def execMark (tag : Word) (s : State) : Host.Outcome State Fault Refusal :=
  .next (s.takeRecord fun s => s.finishRecord { kind := kindMark, tag := tag, status := .done })

/-- BAD_RECORD (R135 check 1): the completion carries the code as it stood in the record (R140). -/
def execBadRecord (kind : Byte) (tag : Word) (s : State) : Host.Outcome State Fault Refusal :=
  .next (s.takeRecord fun s => s.finishRecord { kind := kind, tag := tag, status := .badRecord })

/-- SENSOR_POWER with an action code that names none (R135 check 3). -/
def execSensorPowerBadField (tag : Word) (_action : Byte) (s : State) : Host.Outcome State Fault Refusal :=
  .next (s.takeRecord fun s =>
    s.finishRecord { kind := kindSensorPower, tag := tag, status := .badField, detail := .powerAction })

/-- A window definition is written into its entry, which is DEFINED; its count stays (R60). -/
def setWindow (n : Nat) (w : Option WindowDef) (windows : List WindowEntry) : List WindowEntry :=
  windows.set n { windowAt windows n with window := w }

/-- WINDOW_SET at the Window Cutter: the table after it, the status and the detail (R59, R60). -/
def windowSetResult (u : Setup) (windows : List WindowEntry) (n : Nat) (w : WindowDef) :
    List WindowEntry × ControlStatus × Detail :=
  match windowSetCheck u windows n w with
  | some refusal => (windows, refusal)
  | none => (setWindow n (some w) windows, .done, .none)

/-- WINDOW_SET (R59, R60). -/
def execWindowSet (tag : Word) (number : Half) (window : WindowDef) (s : State) : Host.Outcome State Fault Refusal :=
  .next (s.takeRecord fun s =>
    match s.ring.setup with
    | none => s
    | some u =>
      let r := windowSetResult u s.cutter.windows number.toNat window
      { s with cutter := { s.cutter with windows := r.1 } }.finishRecord
        { kind := kindWindowSet, tag := tag, status := r.2.1, detail := r.2.2 })

/-- WINDOW_CLEAR at the Window Cutter (R61, Table 23). -/
def windowClearResult (windows : List WindowEntry) (n : Nat) : List WindowEntry × ControlStatus × Detail :=
  if 16 ≤ n then (windows, .badField, .windowNumber)
  else if (windowAt windows n).refs ≠ 0 then (windows, .inUse, .none)
  else (setWindow n none windows, .done, .none)

/-- WINDOW_CLEAR (R61). -/
def execWindowClear (tag : Word) (number : Half) (s : State) : Host.Outcome State Fault Refusal :=
  .next (s.takeRecord fun s =>
    let r := windowClearResult s.cutter.windows number.toNat
    { s with cutter := { s.cutter with windows := r.1 } }.finishRecord
      { kind := kindWindowClear, tag := tag, status := r.2.1, detail := r.2.2 })

/-- ORDER_SET (R68, Table 26). -/
def execOrderSet (tag : Word) (values : List Byte) (s : State) : Host.Outcome State Fault Refusal :=
  .next (s.takeRecord fun s =>
    let order := values.map BitVec.toNat
    if !isOrder order then
      s.finishRecord { kind := kindOrderSet, tag := tag, status := .badField, detail := .orderPermutation }
    else if !s.contextsFree then s.finishRecord { kind := kindOrderSet, tag := tag, status := .busy }
    else
      { s with cutter := { s.cutter with order := order } }.finishRecord
        { kind := kindOrderSet, tag := tag, status := .done })

/-- A record that waits at the Sensor Link stays in hand (R139). -/
def State.hold (j : Job) (s : State) : State := { s with engine := { s.engine with job := some j } }

/-- An immediate WRITE or a READ at the Sensor Link, by the power state (R113, Table 45). -/
def State.sensorAccess (kind : Byte) (j : Job) (s : State) : State :=
  match s.sensor.power with
  | .off => s.finishRecord { kind := kind, tag := j.tag, status := .sensorOff }
  | .settling => s.finishRecord { kind := kind, tag := j.tag, status := .sensorOff }
  | .replaying => s.hold j
  | .ready =>
    let s := s.hold j
    { s with sensor := { s.sensor with engineWaits := true } }.arbitrate

/-- The sensor address check of the engine (R135 check 2). -/
def State.checkAddress (kind : Byte) (tag : Word) (address : Half) (f : State → State) (s : State) : State :=
  if address.toNat < Config.sensorAddresses then f s
  else s.finishRecord { kind := kind, tag := tag, status := .badField, detail := .sensorAddress }

/-- SENSOR_WRITE with timing NOW (R113, R135). -/
def execSensorWriteNow (tag : Word) (address value : Half) (s : State) : Host.Outcome State Fault Refusal :=
  .next (s.takeRecord fun s =>
    s.checkAddress kindSensorWrite tag address fun s =>
      s.sensorAccess kindSensorWrite { tag := tag, work := .write address value })

/-- SENSOR_READ (R113, R135). -/
def execSensorRead (tag : Word) (address : Half) (s : State) : Host.Outcome State Fault Refusal :=
  .next (s.takeRecord fun s =>
    s.checkAddress kindSensorRead tag address fun s =>
      s.sensorAccess kindSensorRead { tag := tag, work := .read address })

/-- A staged write at the Sensor Link (R115): it joins the list and the engine's credit moves to it, or it completes
STAGE_FULL. While the part is DRAINING the new entry is discarded at once (R129). -/
def State.stage (tag : Word) (address value : Half) (s : State) : State :=
  if s.sensor.staged.length < Config.stagedDepth then
    let e : Staged := { address := address, value := value, tag := tag, inProgress := false }
    let s := { s with sensor := { s.sensor with staged := s.sensor.staged ++ [e] } }
    let s := { s with engine := { mode := .idle, credit := .none, job := none } }
    let s := if s.link.part = .draining then s.discardWaiting else s
    (s.gapEvaluateAll.engineTest).follow
  else s.finishRecord { kind := kindSensorWrite, tag := tag, status := .stageFull }

/-- SENSOR_WRITE with timing STAGED (R115, R135). -/
def execSensorWriteStaged (tag : Word) (address value : Half) (s : State) : Host.Outcome State Fault Refusal :=
  .next (s.takeRecord fun s => s.checkAddress kindSensorWrite tag address fun s => s.stage tag address value)

/-- SENSOR_POWER OFF (R126): the replay flag is ignored. -/
def execSensorPowerOff (tag : Word) (_replay : Bool) (s : State) : Host.Outcome State Fault Refusal :=
  .next (s.takeRecord fun s =>
    if s.sensor.power = .off then s.finishRecord { kind := kindSensorPower, tag := tag, status := .already }
    else (s.removePower.finishRecord { kind := kindSensorPower, tag := tag, status := .done }).follow)

/-- SENSOR_POWER ON (R124). -/
def execSensorPowerOn (tag : Word) (replay : Bool) (s : State) : Host.Outcome State Fault Refusal :=
  .next (s.takeRecord fun s =>
    match s.sensor.power with
    | .off => ((s.applyPower replay).hold { tag := tag, work := .power false replay false }).follow
    | .settling => s.hold { tag := tag, work := .power false replay true }
    | .replaying => s.hold { tag := tag, work := .power false replay true }
    | .ready => s.finishRecord { kind := kindSensorPower, tag := tag, status := .already })

/-- SENSOR_POWER CYCLE (R127): the steps of an OFF where the state is not OFF, then those of an ON from OFF. -/
def execSensorPowerCycle (tag : Word) (replay : Bool) (s : State) : Host.Outcome State Fault Refusal :=
  .next (s.takeRecord fun s =>
    let s := if s.sensor.power = .off then s else s.removePower
    ((s.applyPower replay).hold { tag := tag, work := .power true replay false }).follow)

/-- FLUSH_STAGED (R120, Table 46). -/
def execFlushStaged (tag : Word) (s : State) : Host.Outcome State Fault Refusal :=
  .next (s.takeRecord fun s =>
    if s.sensor.power = .off ∨ s.sensor.power = .settling then
      s.finishRecord { kind := kindFlushStaged, tag := tag, status := .sensorOff }
    else (s.hold { tag := tag, work := .flush }).follow)

/-- DISCARD_STAGED (R121): every WAITING entry completes DISCARDED, then the record DONE; a context in GAP evaluates. -/
def execDiscardStaged (tag : Word) (s : State) : Host.Outcome State Fault Refusal :=
  .next (s.takeRecord fun s =>
    ((s.discardWaiting.finishRecord { kind := kindDiscardStaged, tag := tag, status := .done }).gapEvaluateAll).follow)

/-- STOP with target TAG (R20, R21). -/
def execStopTag (tag request : Word) (mode : StopKind) (s : State) : Host.Outcome State Fault Refusal :=
  .next (s.takeRecord fun s =>
    match s.stopByTag request mode with
    | none => s.finishRecord { kind := kindStop, tag := tag, status := .notFound }
    | some s => (s.finishRecord { kind := kindStop, tag := tag, status := .done }).follow)

/-- STOP with target ALL (R20, R23): the request tag is ignored. -/
def execStopAll (tag _request : Word) (mode : StopKind) (s : State) : Host.Outcome State Fault Refusal :=
  .next (s.takeRecord fun s =>
    (((s.stopAllRequests mode).finishRecord { kind := kindStop, tag := tag, status := .done }).captureTest).follow)

end Sys2Proof.Machine
end

