-- ==== Sys2Proof/Machine/Frames.lean ====
section
/-! DEFINITION. The commands that carry frames and requests: beginning a frame, triggers and timers of the Exposure
Sequencer, posting a frame and ending a request (chapters 1 and 2), and CREDIT_GRANT. -/

namespace Sys2Proof.Machine

open Sys2Proof

/-- CREDIT_GRANT (R165): one pass over the four requesters in grant order (DEDUCED, log entry 10). -/
def execCreditGrant (s : State) : Host.Outcome State Fault Refusal :=
  .next (grantPass grantOrder s).follow

/-! ## Beginning a frame (R13, R27, R28) -/

/-- The assignment of a window at the beginning of a frame (R27). -/
def newAssignment (window : Nat) : Assignment :=
  { window := window, buffer := none, written := 0, byteSize := 0, result := none }

/-- A frame as it is begun (R27). -/
def newFrame (index : Nat) (windows : List Nat) : Frame where
  phase := .reserving
  index := index
  assignments := windows.map newAssignment
  slots := if windows.length ≤ 2 then 1 else 2
  creditHeld := false
  returnAsked := false
  expStart := none
  actual := none
  endPending := false
  generation := none
  sensorFrame := none
  badLines := 0
  missingLines := 0
  missed := 0
  flags := {}
  timedOut := false
  outcome := none
  leadTimer := none
  expTimer := none
  trigTimer := none

/-- The other context lets a frame be begun: it is FREE or in CLOSING, or in READOUT where the request permits overlap
(R13). -/
def State.otherAllows (r : CaptureRequest) (c : CtxId) (s : State) : Bool :=
  match s.ctx c with
  | none => true
  | some f => decide (f.phase = .closing) || (r.overlap && decide (f.phase = .readout))

/-- The request of the frame that may be begun now, in the context the next-context pointer names (R13, R28). -/
def State.frameToBegin (s : State) : Option (Entry × CaptureRequest) :=
  match s.sched.queue, s.liveRequest with
  | e :: _, some r =>
    if e.begun < r.frames ∧ s.sched.stopMode = .none ∧ s.sched.endCause = none ∧ s.ctx s.seq.next = none ∧
        s.otherAllows r (other s.seq.next) = true then some (e, r)
    else none
  | _, _ => none

/-- FRAME_BEGIN (R13, R27, R28): without effect while its conditions do not hold. -/
def execFrameBegin (s : State) : Host.Outcome State Fault Refusal :=
  .next (match s.frameToBegin with
    | none => s
    | some (e, r) =>
      let c := s.seq.next
      let s := s.setCtx c (some (newFrame e.begun r.windows))
      let s := { s with seq := { s.seq with next := other c } }
      s.updHead fun e => { e with begun := e.begun + 1 })

/-! ## Triggers and timers (R12, R34 to R41) -/

/-- The level to which TRIGGER goes at a start event of an EDGE or LEVEL request (Table 15). -/
def startLevel (r : CaptureRequest) : Level := if r.falling then .low else .high

/-- The level at the TRIGGER pin changes (R185): the 1 µs of the filter starts where the new level is not the filtered one,
and a return to the filtered level ends it, so that neither transition of a shorter pulse is taken. -/
def State.pinChanges (level : Level) (s : State) : State :=
  if s.seq.pin = level then s
  else
    { s with
      seq :=
        { s.seq with
          pin := level
          hold := if s.seq.trigger = level then none else some (Timer.start s.now Config.filterMicros) } }

/-- The filter takes the transition to the level at the pin, which is a start or an end event for an EDGE or LEVEL request
(R34, R185, Table 15). -/
def State.filteredTransition (s : State) : State :=
  let level := s.seq.pin
  let s := { s with seq := { s.seq with trigger := level, hold := none } }
  match s.liveRequest with
  | none => s
  | some r =>
    match r.source with
    | .software => s
    | .interval => s
    | .edge => if level = startLevel r then (s.startEvent r).follow else s
    | .level => if level = startLevel r then (s.startEvent r).follow else s.endEvent.follow

/-- TRIGGER_TRANSITION (R34, R185): a change at the pin starts or ends the filter's 1 µs, and the filtered transition occurs
when it has run (DESIGN CHOICE, log entry 4). -/
def execTriggerTransition (step : TriggerStep) (s : State) : Host.Outcome State Fault Refusal :=
  .next (match step with
    | .pin level => s.pinChanges level
    | .held => if isDue s.now s.seq.hold then s.filteredTransition else s)

/-- INTERVAL_TICK (R12): when a further interval has passed, the next one is measured from this tick, and a start event is
delivered. The first tick is `State.firstTick`. -/
def execIntervalTick (s : State) : Host.Outcome State Fault Refusal :=
  .next (match s.sched.interval, s.liveRequest with
    | some t, some r =>
      if t.due s.now then
        let next : Timer := { started := t.started + BitVec.ofNat 64 t.duration, duration := r.interval }
        let s := { s with sched := { s.sched with interval := some next } }
        (s.startEvent r).follow
      else s
    | _, _ => s)

/-- TRIGGER_TIMEOUT_EXPIRY of a context (R36). -/
def execTriggerTimeoutExpiry (c : CtxId) (s : State) : Host.Outcome State Fault Refusal :=
  .next (match s.ctx c with
    | none => s
    | some f =>
      if f.phase = .waitStart ∧ isDue s.now f.trigTimer = true then (s.closeFrame c .triggerTimeout).follow else s)

/-- LEAD_EXPIRY of a context (R39). -/
def execLeadExpiry (c : CtxId) (s : State) : Host.Outcome State Fault Refusal :=
  .next (match s.ctx c, s.request with
    | some f, some r =>
      if f.phase = .lead ∧ isDue s.now f.leadTimer = true then (s.enterExposing r c).follow else s
    | _, _ => s)

/-- EXPOSURE_TIMER_EXPIRY of a context (R41, R43): an expiry while the end is deferred has no effect but that the timer has
run out. -/
def execExposureTimerExpiry (c : CtxId) (s : State) : Host.Outcome State Fault Refusal :=
  .next (match s.ctx c with
    | none => s
    | some f =>
      if f.phase = .exposing ∧ isDue s.now f.expTimer = true then
        let s := s.updCtx c fun f => { f with expTimer := none }
        if f.endPending then s else (s.exposureWouldEnd c).follow
      else s)

/-! ## Posting a frame (R46, R104, R105) -/

/-- The result status of an assignment (Table 41). -/
def Assignment.fixed (a : Assignment) : WindowResult :=
  if a.buffer.isNone then .noBuffer
  else if a.written = a.byteSize then .complete
  else if 0 < a.written then .partialRows
  else .empty

/-- The assignment with its result status fixed (R105). -/
def Assignment.fix (a : Assignment) : Assignment := { a with result := some a.fixed }

/-- A slice of the context waits in the Output Store, or a line of its frame is still being cut (R102). -/
def State.sliceRemains (c : CtxId) (s : State) : Bool :=
  s.store.slices.any (fun sl => decide (sl.ctx = c)) || s.cutter.inHand.any (fun sl => decide (sl.ctx = c))

/-- The FRAME completion of a frame (R46, Table 64). -/
def frameReport (e : Entry) (stray : Nat) (f : Frame) : FrameReport where
  tag := e.tag
  index := f.index
  outcome := f.outcome.getD .good
  flags := f.flags
  assignments := f.assignments.map Assignment.fix
  expStart := f.expStart
  actual := f.actual
  generation := f.generation
  sensorFrame := f.sensorFrame
  badLines := f.badLines
  missingLines := f.missingLines
  missed := f.missed
  stray := stray

/-- The counts of the request after a frame has posted (R14). -/
def Entry.countFrame (o : Option FrameOutcome) (e : Entry) : Entry :=
  { e with
    ended := e.ended + 1
    good := if o = some .good then e.good + 1 else e.good
    skipped := if o = some .skipped then e.skipped + 1 else e.skipped }

/-- The frame of a context that may post now, with its request's entry (R46). -/
def State.frameToPost (c : CtxId) (s : State) : Option (Entry × Frame) :=
  match s.sched.queue, s.ctx c with
  | e :: _, some f =>
    if f.phase = .closing ∧ s.sliceRemains c = false ∧ f.creditHeld = true ∧ e.ended = f.index then some (e, f) else none
  | _, _ => none

/-- FRAME_POST of a context (R46, R87, R14): without effect while its conditions do not hold. -/
def execFramePost (c : CtxId) (s : State) : Host.Outcome State Fault Refusal :=
  .next (match s.frameToPost c with
    | none => s
    | some (e, f) =>
      let s := s.handOver (.frame (frameReport e s.recv.stray f))
      let s := { s with recv := { s.recv with stray := 0 } }
      ((s.setCtx c none).updHead (Entry.countFrame f.outcome)).follow)

/-! ## Ending a request (R16 to R19) -/

/-- The REQUEST_END of an entry: the pending missed count joins its missed triggers (R18, R38). -/
def requestReport (e : Entry) (cause : Option EndCause) (pending : Nat) : RequestReport where
  tag := e.tag
  status := (finalStatus e cause).1
  detail := (finalStatus e cause).2
  begun := e.begun
  good := e.good
  skipped := e.skipped
  missed := satAdd e.missed pending

/-- REQUEST_END (R16 to R18): without effect while the active request does not end. -/
def execRequestEnd (s : State) : Host.Outcome State Fault Refusal :=
  .next (if s.requestEnds then
      match s.sched.queue with
      | [] => s
      | e :: rest =>
        let report := requestReport e s.sched.endCause s.seq.missed
        let s :=
          { s with
            sched := { s.sched with queue := rest }
            seq := { s.seq with missed := 0 }
            cutter :=
              { s.cutter with
                windows := countRefs ((e.request.map CaptureRequest.windows).getD []) (· - 1) s.cutter.windows } }
        ((s.handOver (.requestEnd report)).becomeActive).captureTest
    else s)

end Sys2Proof.Machine
end

