-- ==== Sys2Proof/Machine/HostReads.lean ====
section
/-! DEFINITION. The commands that end a host read: the Setup Block, capture records, buffer entries and host read errors
(R4, R93, R146, R147, R153 to R155), and the end of a drain (R177). Control records are in Control.lean. -/

namespace Sys2Proof.Machine

open Sys2Proof

/-- SETUP_READ_DONE (R147, R149, R175). Data for no read in progress is discarded (R155, R180). -/
def execSetupReadDone (data : List Byte) (s : State) : Host.Outcome State Fault Refusal :=
  .next (match s.ring.setupRead with
    | none => s
    | some _ =>
      match setupCheck (parseSetup data) with
      | some d => s.enterHalted .setupInvalid d
      | none => s.takeSetup (parseSetup data))

/-- SETUP_READ_ERROR (R146). -/
def execSetupReadError (_reason : ReadError) (s : State) : Host.Outcome State Fault Refusal :=
  .next (s.readFails .setup)

/-- HOST_READ_TIMEOUT (R154): no completion within 50 ms of the request ends the read in a host read error. -/
def execHostReadTimeout (read : HostRead) (s : State) : Host.Outcome State Fault Refusal :=
  .next (if s.readDue read then s.readFails read else s)

/-- FETCH_READ_ERROR (R154). -/
def execFetchReadError (ring : RingId) (_reason : ReadError) (s : State) : Host.Outcome State Fault Refusal :=
  .next (s.readFails (.ring ring))

/-- DRAIN_FINISH (R177): DISABLED with the tail registers 0, and on to STARTING if Enable reads 1. The trigger latch and
the pending missed count are clear after a drain (R56; DEDUCED, log entry 23), and the Sensor Link stands as Table 49
gives it (R131; DESIGN CHOICE, log entry 30). -/
def execDrainFinish (s : State) : Host.Outcome State Fault Refusal :=
  .next (if s.drained then
      let s := { s.drainPort.enterDisabled with seq := { s.seq with latch := false, missed := 0 } }
      if s.link.enable then s.enterStarting else s
    else s)

/-- A queue entry from a record, with its counts at 0 (R4, R10). -/
def newEntry (tag : Word) (form : EntryForm) (mark : StopMark) : Entry :=
  { tag := tag, form := form, mark := mark, begun := 0, ended := 0, good := 0, skipped := 0, missed := 0 }

/-- The entry a capture record becomes: FLUSHED while a flush mark is recorded, otherwise checked (R4, R5). -/
def State.entryOf (u : Setup) (data : List Byte) (s : State) : Entry :=
  let tag := parseRequestTag data
  match s.sched.flushMark with
  | some _ => newEntry tag .flushedAtFetch .flushed
  | none =>
    match checkCapture u s.cutter.windows data with
    | .error d => newEntry tag (.rejected d) .none
    | .ok r => newEntry tag (.valid r) .none

/-- The flush mark is cleared when the head has reached it (R4, R24). -/
def State.clearMark (s : State) : State :=
  if s.sched.flushMark = some s.ring.capHead then { s with sched := { s.sched with flushMark := none } } else s

/-- Places an entry at the tail of the queue with the credit granted for it, pins a valid entry's windows, and makes it
active in an empty queue (R4, R8, R11). -/
def State.placeEntry (e : Entry) (s : State) : State :=
  let first := s.sched.queue.isEmpty
  let s :=
    { s with
      sched := { s.sched with queue := s.sched.queue ++ [e], credit := .none }
      cutter :=
        { s.cutter with
          windows := countRefs ((e.request.map CaptureRequest.windows).getD []) (· + 1) s.cutter.windows } }
  if first then s.becomeActive else s

/-- CAPTURE_RECORD_READ (R4). A record for no read in progress is discarded (R155). -/
def execCaptureRecordRead (data : List Byte) (s : State) : Host.Outcome State Fault Refusal :=
  .next (match s.ring.capRead, s.ring.setup with
    | some _, some u => (((s.advanceRing .capture).clearMark).placeEntry (s.entryOf u data)).captureTest
    | _, _ => s)

/-- A context in RESERVING that holds its credit and waits for no return waits for a buffer under WAIT (R94, R97). -/
def awaitsBuffer (f : Option Frame) : Bool :=
  f.any fun f => decide (f.phase = .reserving) && f.creditHeld && !f.returnAsked

/-- A waiting context examines the entry that has arrived (R94). -/
def State.bufferArrived (s : State) : State :=
  if awaitsBuffer s.seq.ctx0 then s.assignBuffers .c0
  else if awaitsBuffer s.seq.ctx1 then s.assignBuffers .c1
  else s

/-- BUFFER_ENTRY_READ (R93, R94). An entry for no read in progress is discarded (R155). -/
def execBufferEntryRead (data : List Byte) (s : State) : Host.Outcome State Fault Refusal :=
  .next (match s.ring.bufRead with
    | none => s
    | some _ =>
      let e := parseBuffer s.ring.bufHead data
      let s := s.advanceRing .buffer
      ({ s with bufs := { s.bufs with cache := s.bufs.cache ++ [e] } }.bufferArrived.bufferTest).follow)

end Sys2Proof.Machine
end

