-- ==== Sys2Proof/Machine/Port.lean ====
section
/-! DEFINITION. The commands of the sensor control port, of sensor power and of coalescing: SENSOR_ACK, ACK_TIMEOUT,
SETTLE_TIMER_EXPIRY (chapter 6) and COALESCING_TIMER_EXPIRY (R169). -/

namespace Sys2Proof.Machine

open Sys2Proof

/-- SENSOR_ACK (R109): ignored while no transaction is in progress. `value` is what the acknowledge of a READ carries. -/
def execSensorAck (value : Half) (s : State) : Host.Outcome State Fault Refusal :=
  .next (s.transactionEnds true value)

/-- ACK_TIMEOUT (R109): the acknowledge timer of the transaction in progress has expired. -/
def execAckTimeout (s : State) : Host.Outcome State Fault Refusal :=
  .next (if isDue s.now (s.sensor.port.map Transaction.timer) then s.transactionEnds false 0 else s)

/-- SETTLE_TIMER_EXPIRY (R124 step 3): REPLAYING with the replay flag set and a STALE entry, otherwise READY. -/
def execSettleTimerExpiry (s : State) : Host.Outcome State Fault Refusal :=
  .next (if s.sensor.power = .settling ∧ isDue s.now s.sensor.settle = true then
      let s := { s with sensor := { s.sensor with settle := none } }
      if s.sensor.replayFlag = true ∧ (nextStale 0 s.sensor.mirror).isSome = true then
        { s with sensor := { s.sensor with power := .replaying, replayWaits := true } }.follow
      else s.becomeReady.follow
    else s)

/-- COALESCING_TIMER_EXPIRY (R169). -/
def execCoalescingTimerExpiry (s : State) : Host.Outcome State Fault Refusal :=
  .next (if isDue s.now s.cpl.timer then
      { s with cpl := { s.cpl with unsignalled := 0, timer := none } }.raise Causes.onlyCompletion
    else s)

end Sys2Proof.Machine
end

