-- ==== Sys2Proof/Machine/Registers.lean ====
section
/-! DEFINITION. The commands of the register window, of the resets and of the PCIe configuration (R146, R150, R168, R170
to R174, R176, R179, R180, R184). -/

namespace Sys2Proof.Machine

open Sys2Proof

/-- POWER_ON (R180): the PCIe configuration takes its starting value, messages not enabled. -/
def execPowerOn (pin : Level) (s : State) : Host.Outcome State Fault Refusal :=
  .next (s.partReset false pin)

/-- FUNCTION_RESET (R180): as power-on, PCIe configuration included. -/
def execFunctionReset (pin : Level) (s : State) : Host.Outcome State Fault Refusal :=
  .next (s.partReset false pin)

/-- PART_RESET, a CONTROL write with PartReset 1 (R173, R180): whatever value the write gives Enable, which reads 0 after
it; the PCIe configuration is kept. -/
def execPartReset (_enable : Bool) (pin : Level) (s : State) : Host.Outcome State Fault Refusal :=
  .next (s.partReset true pin)

/-- ENABLE_SET, a CONTROL write with Enable 1 (R173, R174): stored; in DISABLED the part enters STARTING. -/
def execEnableSet (s : State) : Host.Outcome State Fault Refusal :=
  let s := { s with link := { s.link with enable := true } }
  .next (if s.link.part = .disabled then s.enterStarting else s)

/-- ENABLE_CLEAR, a CONTROL write with Enable 0 (R173, R174, R176, R179): stored; RUNNING enters DRAINING and HALTED enters
DISABLED. -/
def execEnableClear (s : State) : Host.Outcome State Fault Refusal :=
  let s := { s with link := { s.link with enable := false } }
  .next (match s.link.part with
    | .running => s.enterDraining
    | .halted => s.enterDisabled
    | .disabled => s
    | .starting => s
    | .draining => s)

/-- INT_CAUSE_WRITE (R170): each cause whose bit is written 1 is cleared, and the signalling condition is tested
again. -/
def execIntCauseWrite (value : Word) (s : State) : Host.Outcome State Fault Refusal :=
  .next (s.setCauses (s.cpl.cause.without (causesOf value)) s.cpl.mask)

/-- INT_MASK_WRITE (R171). -/
def execIntMaskWrite (value : Word) (s : State) : Host.Outcome State Fault Refusal :=
  .next (s.setCauses s.cpl.cause (causesOf value))

/-- MSI_ENABLE_WRITE (R171): no message is sent; the line follows the condition while messages are not enabled. -/
def execMsiEnableWrite (enabled : Bool) (s : State) : Host.Outcome State Fault Refusal :=
  .next { s with link := { s.link with msi := enabled, line := !enabled && s.signalling } }

/-- SETUP_ADDR_WRITE (R146): stored in DISABLED, ignored in every other part state. -/
def execSetupAddrWrite (half : AddrHalf) (value : Word) (s : State) : Host.Outcome State Fault Refusal :=
  .next (if s.link.part = .disabled then
      match half with
      | .lo => { s with link := { s.link with setupLo := value } }
      | .hi => { s with link := { s.link with setupHi := value } }
    else s)

/-- Stores a tail register. -/
def State.storeTail (r : RingId) (value : Word) (s : State) : State :=
  match r with
  | .control => { s with ring := { s.ring with ctlTail := value } }
  | .capture => { s with ring := { s.ring with capTail := value } }
  | .buffer => { s with ring := { s.ring with bufTail := value } }

/-- Largest size the ring may have (R150). -/
def maxRing : RingId → Nat
  | .control => Config.maxRequestRing
  | .capture => Config.maxRequestRing
  | .buffer => Config.maxBufferRing

/-- A Capture Ring tail that leaves fewer records than the flush mark moves the mark back to it, or behind the record being
read; a mark equal to the head is cleared (R24). -/
def State.moveMark (s : State) : State :=
  match s.sched.flushMark with
  | none => s
  | some m =>
    let size := s.ringSize .capture
    let head := s.ring.capHead
    let tail := s.ring.capTail.toNat
    if ringDistance size head tail < ringDistance size head m then
      let mark := if tail = head ∧ s.ring.capRead.isSome = true then (head + 1) % size else tail
      { s with sched := { s.sched with flushMark := if mark = head then none else some mark } }
    else s

/-- The block that reads the ring tests its fetch conditions (R150). -/
def State.tailTest (r : RingId) (s : State) : State :=
  match r with
  | .control => s.engineTest
  | .capture => s.moveMark.captureTest
  | .buffer => s.bufferTest

/-- TAIL_WRITE (R150, Table 61). -/
def execTailWrite (r : RingId) (value : Word) (s : State) : Host.Outcome State Fault Refusal :=
  .next (match s.link.part with
    | .disabled => s.storeTail r value
    | .halted => s.storeTail r value
    | .starting => if value.toNat < maxRing r then s.storeTail r value else s.raise Causes.onlyBadIndex
    | .running =>
      if value.toNat < s.ringSize r then (s.storeTail r value).tailTest r else s.raise Causes.onlyBadIndex
    | .draining =>
      if value.toNat < s.ringSize r then (s.storeTail r value).tailTest r else s.raise Causes.onlyBadIndex)

/-- A value written to CPL_HEAD is in range: it lies in the run from CPL_HEAD forward to the completion tail. With no Setup
Block values held the size is unknown and 0 alone is in range (R168). -/
def State.cplHeadInRange (value : Nat) (s : State) : Bool :=
  match s.ring.setup with
  | none => decide (value = 0)
  | some u =>
    let size := u.completion.size
    decide (value < size ∧ ringDistance size s.cpl.head.toNat value ≤ ringDistance size s.cpl.head.toNat s.cpl.tail)

/-- CPL_HEAD_WRITE (R168). The waiting credit requests are considered at CREDIT_GRANT. -/
def execCplHeadWrite (value : Word) (s : State) : Host.Outcome State Fault Refusal :=
  .next (if s.cplHeadInRange value.toNat then { s with cpl := { s.cpl with head := value } }
    else s.raise Causes.onlyBadIndex)

/-- REGISTER_WRITE_OTHER (R184): ignored. -/
def execRegisterWriteOther (_offset : BitVec 12) (_width : Nat) (_value : Word) (s : State) :
    Host.Outcome State Fault Refusal :=
  .next s

end Sys2Proof.Machine
end

