-- ==== Sys2Proof/Machine/Stream.lean ====
section
/-! DEFINITION. The commands of the pixel stream and of the Output Store (chapters 4 and 5): sensor packets, the frame
timer, slices offered and slices written. -/

namespace Sys2Proof.Machine

open Sys2Proof

/-! ## Packets (R78 to R86) -/

/-- A stray packet is counted and changes nothing else (R86). -/
def State.countStray (s : State) : State := { s with recv := { s.recv with stray := satAdd s.recv.stray 1 } }

/-- The receiver leaves a readout for IDLE (R78, R84, R85). -/
def State.receiverIdle (s : State) : State :=
  { s with recv := { s.recv with state := .idle, served := none, timer := none } }

/-- The frame is flagged SEQUENCE. -/
def Frame.flagSequence (f : Frame) : Frame := { f with flags := { f.flags with sequence := true } }

/-- The frame has one more bad line and is flagged BAD_LINES (R81). -/
def Frame.countBad (f : Frame) : Frame :=
  { f with badLines := f.badLines + 1, flags := { f.flags with badLines := true } }

/-- FRAME_START (R78, Table 32). -/
def execFrameStart (number : Byte) (s : State) : Host.Outcome State Fault Refusal :=
  .next (match s.recv.state, s.recv.served with
    | .expecting, some c =>
      let s := s.updCtx c fun f => { f with sensorFrame := some number }
      { s with recv := { s.recv with state := .receiving } }
    | .receiving, some c =>
      let s := s.updCtx c Frame.flagSequence
      ((s.receiverIdle.countStray).readoutEnd c).follow
    | _, _ => s.countStray)

/-- The line is delivered to the Line Assembler, put into raster order and cut, unless its frame is flagged DISCARD
(R67, R69, R70, R82). -/
def State.deliverLine (c : CtxId) (number : Nat) (pixels : List Nat) (s : State) : State :=
  match s.ctx c, s.request with
  | some f, some r =>
    if f.flags.discard then s
    else
      let raster := assemble s.cutter.order s.columns pixels
      let slices := cutLine s.cutter.windows c s.depth number raster 0 r.windows
      { s with cutter := { s.cutter with inHand := s.cutter.inHand ++ slices } }
  | _, _ => s

/-- A line taken into sequence is tested for length and content (R81). -/
def State.testLine (c : CtxId) (number : Nat) (pixels : List Nat) (check : Half) (s : State) : State :=
  if pixels.length ≠ s.columns then s.updCtx c Frame.countBad
  else
    let s := if pixels.sum % 65536 = check.toNat then s else s.updCtx c Frame.countBad
    s.deliverLine c number pixels

/-- A line is taken into sequence: the lines it skipped are counted missing and the expected line number moves past it
(R80). -/
def State.takeLine (c : CtxId) (number : Nat) (s : State) : State :=
  let skipped := number - s.recv.expected
  let s := s.updCtx c fun f => { f with missingLines := f.missingLines + skipped }
  { s with recv := { s.recv with expected := number + 1 } }

/-- A LINE in RECEIVING is tested for its place in the frame (R79, Table 33). -/
def State.receiveLine (c : CtxId) (number : Nat) (pixels : List Nat) (check : Half) (s : State) : State :=
  if s.lines ≤ number ∨ number < s.recv.expected then s.updCtx c Frame.flagSequence
  else
    let s := if number = s.recv.expected then s else s.updCtx c Frame.flagSequence
    (s.takeLine c number).testLine c number pixels check

/-- LINE (R79 to R82). -/
def execLine (number : Half) (pixels : List Half) (check : Half) (s : State) : Host.Outcome State Fault Refusal :=
  .next (match s.recv.state, s.recv.served with
    | .receiving, some c => s.receiveLine c number.toNat (pixels.map (pixelValue s.depth)) check
    | _, _ => s.countStray)

/-- FRAME_END (R84). -/
def execFrameEnd (count : Half) (s : State) : Host.Outcome State Fault Refusal :=
  .next (match s.recv.state, s.recv.served with
    | .receiving, some c =>
      let missing := s.lines - s.recv.expected
      let s := if s.recv.expected < s.lines ∨ count.toNat ≠ s.lines then s.updCtx c Frame.flagSequence else s
      let s := s.updCtx c fun f => { f with missingLines := f.missingLines + missing }
      (s.receiverIdle.readoutEnd c).follow
    | _, _ => s.countStray)

/-- UNKNOWN_PACKET (R86): stray in every receiver state. -/
def execUnknownPacket (s : State) : Host.Outcome State Fault Refusal :=
  .next s.countStray

/-- FRAME_TIMER_EXPIRY (R85). -/
def execFrameTimerExpiry (s : State) : Host.Outcome State Fault Refusal :=
  .next (match s.recv.state, s.recv.served with
    | .idle, _ => s
    | _, none => s
    | _, some c =>
      if isDue s.now s.recv.timer then
        let s := s.updCtx c fun f => { f with timedOut := true }
        (s.receiverIdle.readoutEnd c).follow
      else s)

/-! ## Slices (R100 to R103) -/

/-- Free space of the Output Store (R100). -/
def State.freeSpace (s : State) : Nat := Config.storeBytes - (s.store.slices.map Slice.size).sum

/-- The store admits or drops a slice (R101, Table 40). -/
def State.offerSlice (sl : Slice) (s : State) : State :=
  match s.ctx sl.ctx with
  | none => s
  | some f =>
    if f.flags.overrun then s
    else if s.freeSpace < sl.size then
      s.updCtx sl.ctx fun f => { f with flags := { f.flags with overrun := true } }
    else { s with store := { s.store with slices := s.store.slices ++ [sl] } }

/-- SLICE_OFFER (R101): the oldest slice in hand is offered. -/
def execSliceOffer (s : State) : Host.Outcome State Fault Refusal :=
  .next (match s.cutter.inHand with
    | [] => s
    | sl :: rest => { s with cutter := { s.cutter with inHand := rest } }.offerSlice sl)

/-- The bytes of a slice are added to its assignment (R103). -/
def Frame.addWritten (position size : Nat) (f : Frame) : Frame :=
  { f with assignments := f.assignments.modify position fun a => { a with written := a.written + size } }

/-- The buffer of the assignment that a slice names (R71, R103). -/
def State.sliceBuffer (sl : Slice) (s : State) : Option BufferRef :=
  (s.ctx sl.ctx).bind fun f => (f.assignments[sl.position]?).bind Assignment.buffer

/-- SLICE_WRITE_DONE (R103): the last byte of the oldest slice's write has been issued. -/
def execSliceWriteDone (s : State) : Host.Outcome State Fault Refusal :=
  .next (match s.store.slices with
    | [] => s
    | sl :: rest =>
      let target := s.sliceBuffer sl
      let s := { s with store := { s.store with slices := rest } }
      match target with
      | none => s
      | some b =>
        (s.issue (.memory (b.addr + BitVec.ofNat 64 sl.offset) sl.data)).updCtx sl.ctx
          (Frame.addWritten sl.position sl.size))

end Sys2Proof.Machine
end

