-- ==== Sys2Proof/Machine/Idle.lean ====
section
/-! DEFINITION. What the part does when no command waits: it takes up its own next event, or one microsecond passes
(R53, R54; DESIGN CHOICE, log entry 2). -/

namespace Sys2Proof.Machine

open Sys2Proof

/-- A context's timer of this kind has expired in the state that uses it. -/
def State.ctxDue (s : State) (c : CtxId) (p : Phase) (timer : Frame → Option Timer) : Bool :=
  (s.ctx c).any fun f => decide (f.phase = p) && isDue s.now (timer f)

/-- The part's own events, each with the condition under which it is ready: the internal events that the spec has happen as
soon as their conditions hold (R13, R18, R46, R101, R165, R177), then the timers that have expired (R54, R154). The order
is the model's choice (DESIGN CHOICE, log entry 2). -/
def State.ownEvents (s : State) : List (Bool × Instr) :=
  [ (s.requestEnds, .requestEnd),
    ((s.frameToPost .c0).isSome, .framePost .c0),
    ((s.frameToPost .c1).isSome, .framePost .c1),
    (s.grantDue, .creditGrant),
    (s.frameToBegin.isSome, .frameBegin),
    (!s.cutter.inHand.isEmpty, .sliceOffer),
    (s.drained, .drainFinish),
    (isDue s.now s.seq.hold, .triggerTransition .held),
    (isDue s.now s.sched.interval && s.liveRequest.isSome, .intervalTick),
    (s.ctxDue .c0 .waitStart Frame.trigTimer, .triggerTimeoutExpiry .c0),
    (s.ctxDue .c1 .waitStart Frame.trigTimer, .triggerTimeoutExpiry .c1),
    (s.ctxDue .c0 .lead Frame.leadTimer && s.request.isSome, .leadExpiry .c0),
    (s.ctxDue .c1 .lead Frame.leadTimer && s.request.isSome, .leadExpiry .c1),
    (s.ctxDue .c0 .exposing Frame.expTimer, .exposureTimerExpiry .c0),
    (s.ctxDue .c1 .exposing Frame.expTimer, .exposureTimerExpiry .c1),
    (decide (s.recv.state ≠ .idle) && s.recv.served.isSome && isDue s.now s.recv.timer, .frameTimerExpiry),
    (isDue s.now (s.sensor.port.map Transaction.timer), .ackTimeout),
    (decide (s.sensor.power = .settling) && isDue s.now s.sensor.settle, .settleTimerExpiry),
    (isDue s.now s.cpl.timer, .coalescingTimerExpiry),
    (s.readDue .setup, .hostReadTimeout .setup),
    (s.readDue (.ring .control), .hostReadTimeout (.ring .control)),
    (s.readDue (.ring .capture), .hostReadTimeout (.ring .capture)),
    (s.readDue (.ring .buffer), .hostReadTimeout (.ring .buffer)) ]

/-- The first of the part's own events that is ready. -/
def State.readyEvent (s : State) : Option Instr := (s.ownEvents.find? Prod.fst).map Prod.snd

/-- A replay is under way that the end of a drain took the port from (R129, R131; DESIGN CHOICE, log entry 30). -/
def State.replayStands (s : State) : Bool :=
  decide (s.sensor.power = .replaying) && !s.sensor.replayWaits && s.sensor.port.isNone

/-- That replay runs on from the lowest STALE entry that it has not passed, or ends (R125, R129; DESIGN CHOICE, log entry 30). -/
def State.resumeReplay (s : State) : State := s.replayNext.follow

/-- A step that finds no command waiting: the part's own next event is put on the queue, or, when none is ready, a replay that
the end of a drain took the port from goes on, or the Timebase advances by one microsecond (R53). -/
def State.idle (s : State) : State :=
  match s.readyEvent with
  | some c => { s with pending := [c] }
  | none => if s.replayStands then s.resumeReplay else { s with now := s.now + 1 }

end Sys2Proof.Machine
end

