-- ==== Sys2Proof/Machine/Dispatch.lean ====
section
/-! DEFINITION. One arm for each command of spec/opcode_table.json: a direct call of its meaning. -/

namespace Sys2Proof.Machine

open Sys2Proof

def exec (i : Instr) (s : State) : Host.Outcome State Fault Refusal :=
  match i with
  | .powerOn pin => Sys2Proof.Machine.execPowerOn pin s
  | .functionReset pin => Sys2Proof.Machine.execFunctionReset pin s
  | .partReset enable pin => Sys2Proof.Machine.execPartReset enable pin s
  | .enableSet => Sys2Proof.Machine.execEnableSet s
  | .enableClear => Sys2Proof.Machine.execEnableClear s
  | .intCauseWrite value => Sys2Proof.Machine.execIntCauseWrite value s
  | .intMaskWrite value => Sys2Proof.Machine.execIntMaskWrite value s
  | .msiEnableWrite enabled => Sys2Proof.Machine.execMsiEnableWrite enabled s
  | .setupAddrWrite half value => Sys2Proof.Machine.execSetupAddrWrite half value s
  | .tailWrite ring value => Sys2Proof.Machine.execTailWrite ring value s
  | .cplHeadWrite value => Sys2Proof.Machine.execCplHeadWrite value s
  | .registerWriteOther offset width value => Sys2Proof.Machine.execRegisterWriteOther offset width value s
  | .setupReadDone data => Sys2Proof.Machine.execSetupReadDone data s
  | .setupReadError reason => Sys2Proof.Machine.execSetupReadError reason s
  | .hostReadTimeout read => Sys2Proof.Machine.execHostReadTimeout read s
  | .fetchReadError ring reason => Sys2Proof.Machine.execFetchReadError ring reason s
  | .drainFinish => Sys2Proof.Machine.execDrainFinish s
  | .creditGrant => Sys2Proof.Machine.execCreditGrant s
  | .captureRecordRead data => Sys2Proof.Machine.execCaptureRecordRead data s
  | .bufferEntryRead data => Sys2Proof.Machine.execBufferEntryRead data s
  | .mark tag => Sys2Proof.Machine.execMark tag s
  | .badRecord kind tag => Sys2Proof.Machine.execBadRecord kind tag s
  | .windowSet tag number window => Sys2Proof.Machine.execWindowSet tag number window s
  | .windowClear tag number => Sys2Proof.Machine.execWindowClear tag number s
  | .orderSet tag values => Sys2Proof.Machine.execOrderSet tag values s
  | .sensorWriteNow tag address value => Sys2Proof.Machine.execSensorWriteNow tag address value s
  | .sensorWriteStaged tag address value => Sys2Proof.Machine.execSensorWriteStaged tag address value s
  | .sensorRead tag address => Sys2Proof.Machine.execSensorRead tag address s
  | .sensorPowerOff tag replay => Sys2Proof.Machine.execSensorPowerOff tag replay s
  | .sensorPowerOn tag replay => Sys2Proof.Machine.execSensorPowerOn tag replay s
  | .sensorPowerCycle tag replay => Sys2Proof.Machine.execSensorPowerCycle tag replay s
  | .flushStaged tag => Sys2Proof.Machine.execFlushStaged tag s
  | .discardStaged tag => Sys2Proof.Machine.execDiscardStaged tag s
  | .stopTag tag request mode => Sys2Proof.Machine.execStopTag tag request mode s
  | .stopAll tag request mode => Sys2Proof.Machine.execStopAll tag request mode s
  | .frameBegin => Sys2Proof.Machine.execFrameBegin s
  | .triggerTransition step => Sys2Proof.Machine.execTriggerTransition step s
  | .intervalTick => Sys2Proof.Machine.execIntervalTick s
  | .triggerTimeoutExpiry ctx => Sys2Proof.Machine.execTriggerTimeoutExpiry ctx s
  | .leadExpiry ctx => Sys2Proof.Machine.execLeadExpiry ctx s
  | .exposureTimerExpiry ctx => Sys2Proof.Machine.execExposureTimerExpiry ctx s
  | .frameStart number => Sys2Proof.Machine.execFrameStart number s
  | .line number pixels check => Sys2Proof.Machine.execLine number pixels check s
  | .frameEnd count => Sys2Proof.Machine.execFrameEnd count s
  | .unknownPacket => Sys2Proof.Machine.execUnknownPacket s
  | .frameTimerExpiry => Sys2Proof.Machine.execFrameTimerExpiry s
  | .sliceOffer => Sys2Proof.Machine.execSliceOffer s
  | .sliceWriteDone => Sys2Proof.Machine.execSliceWriteDone s
  | .framePost ctx => Sys2Proof.Machine.execFramePost ctx s
  | .requestEnd => Sys2Proof.Machine.execRequestEnd s
  | .coalescingTimerExpiry => Sys2Proof.Machine.execCoalescingTimerExpiry s
  | .sensorAck value => Sys2Proof.Machine.execSensorAck value s
  | .ackTimeout => Sys2Proof.Machine.execAckTimeout s
  | .settleTimerExpiry => Sys2Proof.Machine.execSettleTimerExpiry s
  | .sensorPowerBadField tag action => Sys2Proof.Machine.execSensorPowerBadField tag action s

end Sys2Proof.Machine
end

