-- ==== Sys2Proof/Safety.lean ====
section
/-! DEFINITION. What claims about the part are stated in: the parts of the state that a frame clause names, what stands on
the Host Link, what finishing a control record or entering HALTED leaves, and what a safe state is. -/

namespace Sys2Proof.Machine

open Sys2Proof

/-! ## Frames -/

/-- The pieces of the state that a frame clause can name. -/
inductive Part where
  | time | freeCount | pending
  | partState | enable | halt | setupAddr | msi | line | issued
  | ctlRing | capRing | bufRing | tails | setup | setupRead
  | engine
  | queue | stop | interval | flushMark | capCredit
  | contexts | pointer | latch | missed | lines | trigger
  | receiver | stray
  | windows | order | inHand | store | cache
  | power | replay | port | waits | mirror | staged | flush | generation
  | slots | cplHead | coalescing | cause | mask
deriving DecidableEq, Repr

/-- A piece of the state is the same in both states. -/
def Part.same : Part → State → State → Prop
  | .time, s, t => t.now = s.now
  | .freeCount, s, t => t.free = s.free
  | .pending, s, t => t.pending = s.pending
  | .partState, s, t => t.link.part = s.link.part
  | .enable, s, t => t.link.enable = s.link.enable
  | .halt, s, t => (t.link.haltCause, t.link.haltDetail) = (s.link.haltCause, s.link.haltDetail)
  | .setupAddr, s, t => (t.link.setupLo, t.link.setupHi) = (s.link.setupLo, s.link.setupHi)
  | .msi, s, t => t.link.msi = s.link.msi
  | .line, s, t => t.link.line = s.link.line
  | .issued, s, t => t.link.issued = s.link.issued
  | .ctlRing, s, t => (t.ring.ctlHead, t.ring.ctlRead) = (s.ring.ctlHead, s.ring.ctlRead)
  | .capRing, s, t => (t.ring.capHead, t.ring.capRead) = (s.ring.capHead, s.ring.capRead)
  | .bufRing, s, t => (t.ring.bufHead, t.ring.bufRead) = (s.ring.bufHead, s.ring.bufRead)
  | .tails, s, t => (t.ring.ctlTail, t.ring.capTail, t.ring.bufTail) = (s.ring.ctlTail, s.ring.capTail, s.ring.bufTail)
  | .setup, s, t => t.ring.setup = s.ring.setup
  | .setupRead, s, t => t.ring.setupRead = s.ring.setupRead
  | .engine, s, t => t.engine = s.engine
  | .queue, s, t => t.sched.queue = s.sched.queue
  | .stop, s, t => (t.sched.stopMode, t.sched.endCause) = (s.sched.stopMode, s.sched.endCause)
  | .interval, s, t => t.sched.interval = s.sched.interval
  | .flushMark, s, t => t.sched.flushMark = s.sched.flushMark
  | .capCredit, s, t => t.sched.credit = s.sched.credit
  | .contexts, s, t => (t.seq.ctx0, t.seq.ctx1) = (s.seq.ctx0, s.seq.ctx1)
  | .pointer, s, t => t.seq.next = s.seq.next
  | .latch, s, t => t.seq.latch = s.seq.latch
  | .missed, s, t => t.seq.missed = s.seq.missed
  | .lines, s, t => (t.seq.expose, t.seq.strobe) = (s.seq.expose, s.seq.strobe)
  | .trigger, s, t => (t.seq.trigger, t.seq.pin, t.seq.hold) = (s.seq.trigger, s.seq.pin, s.seq.hold)
  | .receiver, s, t =>
    (t.recv.state, t.recv.served, t.recv.expected, t.recv.timer) =
      (s.recv.state, s.recv.served, s.recv.expected, s.recv.timer)
  | .stray, s, t => t.recv.stray = s.recv.stray
  | .windows, s, t => t.cutter.windows = s.cutter.windows
  | .order, s, t => t.cutter.order = s.cutter.order
  | .inHand, s, t => t.cutter.inHand = s.cutter.inHand
  | .store, s, t => t.store = s.store
  | .cache, s, t => t.bufs = s.bufs
  | .power, s, t =>
    (t.sensor.power, t.sensor.enableOut, t.sensor.settle, t.sensor.replayFlag) =
      (s.sensor.power, s.sensor.enableOut, s.sensor.settle, s.sensor.replayFlag)
  | .replay, s, t =>
    (t.sensor.replayPos, t.sensor.replayed, t.sensor.failed) = (s.sensor.replayPos, s.sensor.replayed, s.sensor.failed)
  | .port, s, t => t.sensor.port = s.sensor.port
  | .waits, s, t =>
    (t.sensor.replayWaits, t.sensor.flushWaits, t.sensor.engineWaits) =
      (s.sensor.replayWaits, s.sensor.flushWaits, s.sensor.engineWaits)
  | .mirror, s, t => t.sensor.mirror = s.sensor.mirror
  | .staged, s, t => t.sensor.staged = s.sensor.staged
  | .flush, s, t => t.sensor.flush = s.sensor.flush
  | .generation, s, t => t.sensor.generation = s.sensor.generation
  | .slots, s, t => (t.cpl.tail, t.cpl.phase) = (s.cpl.tail, s.cpl.phase)
  | .cplHead, s, t => t.cpl.head = s.cpl.head
  | .coalescing, s, t => (t.cpl.unsignalled, t.cpl.timer) = (s.cpl.unsignalled, s.cpl.timer)
  | .cause, s, t => t.cpl.cause = s.cpl.cause
  | .mask, s, t => t.cpl.mask = s.cpl.mask

/-- Every piece of the state outside the list is the same in both states. -/
def unchangedBut (changed : List Part) (s t : State) : Prop := ∀ p : Part, p ∉ changed → p.same s t

/-- The active request can begin no further frame, and no context is in RESERVING, GAP or WAIT_START: the interval timer is
stopped (R12). -/
def State.intervalStops (s : State) : Prop :=
  (s.sched.queue.head?.all (fun e => e.request.all fun r => decide (r.frames ≤ e.begun)) = true ∨
      s.sched.stopMode ≠ .none ∨ s.sched.endCause ≠ none) ∧
    ∀ c, s.inPhase c .reserving = false ∧ s.inPhase c .gap = false ∧ s.inPhase c .waitStart = false

/-- The interval timer goes on as it was, or stops where R12 says so of the state after the event. -/
def IntervalFollows (s t : State) : Prop :=
  (t.intervalStops → t.sched.interval = none) ∧ (¬ t.intervalStops → t.sched.interval = s.sched.interval)

/-- Every piece of the state outside the list is the same in both states, but for the interval timer, which follows R12. -/
def timedBut (changed : List Part) (s t : State) : Prop :=
  unchangedBut (.interval :: changed) s t ∧ IntervalFollows s t

/-! ## What stands on the Host Link -/

/-- The interrupt message that a change of the causes sends: one where messages are enabled and the signalling condition went
from false to true (R171). -/
def messageSent (s t : State) : List LinkWrite :=
  if s.link.msi = true ∧ s.signalling = false ∧ t.signalling = true then [.message] else []

/-! The bytes of Tables 79 and 80 and the codes of Table 82 are written out here once more, row by row as the tables have
them; `Completion.slotItems_bytes` and `progressWrite_eq` (Laws/Ops.lean) prove the meaning's bytes to be these. -/

/-- An item of a table of chapter 11: its offset, its size in bytes and its value. -/
structure Item where
  off : Nat
  size : Nat
  value : Nat
deriving DecidableEq, Repr

/-- The byte of an item at an offset of its record: the item stands little-endian (chapter 11). -/
def Item.byteAt (i : Item) (n : Nat) : Byte := BitVec.ofNat 8 (i.value / 256 ^ (n - i.off))

/-- A record of `n` bytes with these items, and every byte that none of them covers 0 (R183). -/
def laidOut (n : Nat) (items : List Item) : List Byte :=
  (List.range n).map fun k =>
    ((items.find? fun i => decide (i.off ≤ k ∧ k < i.off + i.size)).map fun i => i.byteAt k).getD 0

/-- Table 82: the detail codes of the capture checks from 01H, of the control checks from 20H, of the halt from 40H. -/
def detailItem (d : Detail) : Nat :=
  let capture : List Detail :=
    [.badKind, .windowCount, .windowUndefined, .windowRepeated, .windowRange, .frameCount, .startSource, .exposureTime,
      .interval, .strobeLead, .latchLevel, .triggerTimeout]
  let control : List Detail :=
    [.windowNumber, .windowSize, .skipValue, .skipMultiple, .mosaicOrigin, .windowExtent, .byteSize, .orderPermutation,
      .sensorAddress, .powerAction]
  let halt : List Detail :=
    [.setupAddress, .controlRing, .captureRing, .bufferRing, .completionRing, .progressAddress, .columns, .lines, .depth,
      .frameTimeout, .settleTime, .coalesceCount, .coalesceDelay]
  if d = .none then 0x00
  else if d ∈ capture then 0x01 + capture.idxOf d
  else if d ∈ control then 0x20 + control.idxOf d
  else 0x40 + halt.idxOf d

/-- Table 82: the frame outcomes from 0. -/
def outcomeItem (o : FrameOutcome) : Nat :=
  [FrameOutcome.good, .skipped, .stopped, .aborted, .triggerTimeout, .sensorOff, .sensorLost, .timeout, .overrun,
    .sequence].idxOf o

/-- Table 82: the window result statuses from 0. -/
def resultItem (r : WindowResult) : Nat := [WindowResult.complete, .partialRows, .empty, .noBuffer].idxOf r

/-- Table 82: the REQUEST_END final statuses from 0. -/
def finalItem (f : FinalStatus) : Nat :=
  [FinalStatus.complete, .stopped, .aborted, .flushed, .triggerTimeout, .sensorOff, .sensorLost, .badRequest].idxOf f

/-- Table 82: the control statuses from 0. -/
def statusItem (c : ControlStatus) : Nat :=
  [ControlStatus.done, .applied, .discarded, .already, .badRecord, .badField, .inUse, .busy, .stageFull, .sensorOff,
    .portTimeout, .notFound].idxOf c

/-- Table 82: the BUFFER_RETURN reasons from 1. -/
def reasonItem (r : ReturnReason) : Nat := 1 + [ReturnReason.short, .badBuffer, .unused].idxOf r

/-- The window assignment group of 10 bytes at an offset: window number, result status, buffer tag and bytes written, the last
two 0 with no buffer; an unused place has window number 0 and NO_BUFFER (R162, Tables 41 and 80). -/
def assignmentItems (off : Nat) (place : Option Assignment) : List Item :=
  match place with
  | none => [⟨off, 1, 0⟩, ⟨off + 1, 1, resultItem .noBuffer⟩, ⟨off + 2, 4, 0⟩, ⟨off + 6, 4, 0⟩]
  | some a =>
    [⟨off, 1, a.window⟩, ⟨off + 1, 1, resultItem (a.result.getD .noBuffer)⟩,
      ⟨off + 2, 4, (a.buffer.map fun b => b.tag.toNat).getD 0⟩, ⟨off + 6, 4, if a.buffer.isSome then a.written else 0⟩]

/-- The flags of a FRAME slot, STRETCHED in bit 0 (Table 80). -/
def flagItem (f : FrameFlags) : Nat :=
  f.stretched.toNat + 2 * f.latchedStart.toNat + 4 * f.shortLevel.toNat + 8 * f.badLines.toNat + 16 * f.sequence.toNat +
    32 * f.overrun.toNat + 64 * f.discard.toNat

/-- Table 80, FRAME; an item that is not present reads 0 (R183). -/
def frameItems (r : FrameReport) : List Item :=
  [⟨0, 1, 0x01⟩, ⟨1, 1, r.assignments.length⟩, ⟨2, 1, outcomeItem r.outcome⟩, ⟨3, 1, flagItem r.flags⟩, ⟨4, 4, r.tag.toNat⟩,
    ⟨8, 2, r.index⟩, ⟨10, 1, (r.sensorFrame.map BitVec.toNat).getD 0⟩,
    ⟨11, 1, r.sensorFrame.isSome.toNat + 2 * r.generation.isSome.toNat⟩, ⟨12, 4, (r.generation.map BitVec.toNat).getD 0⟩,
    ⟨16, 8, (r.expStart.map BitVec.toNat).getD 0⟩, ⟨24, 4, (r.actual.map BitVec.toNat).getD 0⟩, ⟨28, 2, r.badLines⟩,
    ⟨30, 2, r.missingLines⟩, ⟨32, 2, r.missed⟩, ⟨34, 2, r.stray⟩] ++
    assignmentItems 36 r.assignments[0]? ++ assignmentItems 46 r.assignments[1]?

/-- Table 80, FRAME_CONT. -/
def frameContItems (r : FrameReport) : List Item :=
  [⟨0, 1, 0x02⟩, ⟨4, 4, r.tag.toNat⟩, ⟨8, 2, r.index⟩] ++ assignmentItems 12 r.assignments[2]? ++
    assignmentItems 22 r.assignments[3]? ++ assignmentItems 32 r.assignments[4]? ++ assignmentItems 42 r.assignments[5]?

/-- The slots a completion occupies, the first one first, each with its items: Table 80, and two slots for a FRAME of three
windows or more (R160, R162). -/
def Completion.slotItems : Completion → List (List Item)
  | .frame r => if r.assignments.length ≤ 2 then [frameItems r] else [frameItems r, frameContItems r]
  | .requestEnd r =>
    [[⟨0, 1, 0x03⟩, ⟨1, 1, finalItem r.status⟩, ⟨2, 1, detailItem r.detail⟩, ⟨4, 4, r.tag.toNat⟩, ⟨8, 2, r.begun⟩,
      ⟨10, 2, r.good⟩, ⟨12, 2, r.skipped⟩, ⟨14, 2, r.missed⟩]]
  | .control r =>
    [[⟨0, 1, 0x04⟩, ⟨1, 1, r.kind.toNat⟩, ⟨2, 1, statusItem r.status⟩, ⟨3, 1, detailItem r.detail⟩, ⟨4, 4, r.tag.toNat⟩,
      ⟨8, 2, r.read.toNat⟩, ⟨10, 1, r.generation.isSome.toNat⟩, ⟨12, 4, (r.generation.map BitVec.toNat).getD 0⟩,
      ⟨16, 2, r.replayed⟩, ⟨18, 2, r.failed⟩]]
  | .bufferReturn tag reason => [[⟨0, 1, 0x05⟩, ⟨1, 1, reasonItem reason⟩, ⟨4, 4, tag.toNat⟩]]

/-- The write of one slot: 64 bytes at 64 times its number in the Completion Ring, the items of Table 80 and the phase in
bit 0 of byte 63 (R144, R160, R183). -/
def slotWrite (u : Setup) (at_ : Nat × Bool) (items : List Item) : LinkWrite :=
  .memory (u.completion.addr + BitVec.ofNat 64 (64 * at_.1)) (laidOut 64 (items ++ [⟨63, 1, at_.2.toNat⟩]))

/-- The slot behind a slot and the phase it is written with: behind the last slot the first, with the phase inverted (R160). -/
def slotBehind (u : Setup) (at_ : Nat × Bool) : Nat × Bool :=
  if at_.1 + 1 = u.completion.size then (0, !at_.2) else (at_.1 + 1, at_.2)

/-- The Progress Block write with these heads: 16 bytes, those of Table 79 (R156, R183). -/
def progressWrite (u : Setup) (ctl cap buf : Nat) : LinkWrite :=
  .memory u.progress (laidOut 16 [⟨0, 2, ctl⟩, ⟨2, 2, cap⟩, ⟨4, 2, buf⟩])

/-- The slot writes of one completion at a tail and phase, in issue order: a FRAME_CONT before its FRAME (R160). -/
def slotWrites (u : Setup) (at_ : Nat × Bool) (c : Completion) : List LinkWrite :=
  match c.slotItems with
  | [a] => [slotWrite u at_ a]
  | [a, b] => [slotWrite u (slotBehind u at_) b, slotWrite u at_ a]
  | _ => []

/-- The tail and phase after one completion (R160). -/
def afterSlots (u : Setup) (at_ : Nat × Bool) (c : Completion) : Nat × Bool :=
  c.slotItems.foldl (fun p _ => slotBehind u p) at_

/-- What hand-overs move at the Completion Writer: the tail and the phase, the unsignalled count, the coalescing timer and the
COMPLETION cause. -/
structure Handed where
  slot : Nat × Bool
  unsignalled : Nat
  timer : Option Timer
  completion : Bool
deriving DecidableEq, Repr

/-- The state at the Completion Writer as hand-overs find it. -/
def State.handed (s : State) : Handed where
  slot := (s.cpl.tail, s.cpl.phase)
  unsignalled := s.cpl.unsignalled
  timer := s.cpl.timer
  completion := s.cpl.cause.completion

/-- One hand-over at the Timebase value `now`: the tail and the phase move past its slots (R160), and it is counted by the two
steps of R169. -/
def Handed.next (u : Setup) (now : Stamp) (c : Completion) (h : Handed) : Handed :=
  if h.unsignalled + 1 = u.coalesceCount ∨ u.coalesceDelay = 0 then
    { slot := afterSlots u h.slot c, unsignalled := 0, timer := none, completion := true }
  else
    { slot := afterSlots u h.slot c
      unsignalled := h.unsignalled + 1
      timer := if h.unsignalled = 0 then some { started := now, duration := u.coalesceDelay } else h.timer
      completion := h.completion }

/-- What hand-overs one after the other put on the Host Link: the slot writes of each, and behind them the interrupt message
where the COMPLETION that it sets makes the signalling condition true (R161, R171). `signals` says of COMPLETION, set or
clear, whether the condition is true with messages enabled. -/
def runWrites (u : Setup) (now : Stamp) (signals : Bool → Bool) : Handed → List Completion → List LinkWrite
  | _, [] => []
  | h, c :: rest =>
    slotWrites u h.slot c ++
      (if signals h.completion = false ∧ signals (h.next u now c).completion = true then [.message] else []) ++
      runWrites u now signals (h.next u now c) rest

/-- Messages are enabled and the signalling condition is true with COMPLETION so, the other causes as they stand (R171). -/
def State.signalsWith (s : State) (completion : Bool) : Bool :=
  s.link.msi && Machine.signalling { s.cpl.cause with completion := completion } s.cpl.mask

/-- These completions were handed over, behind these other host memory writes: the slots written, each byte of them as Table 80
has it, and the messages sent, the tail and the phase behind them, the unsignalled count and the coalescing timer; of the
causes COMPLETION alone can have been set (R160, R161, R169 to R171). -/
def Posts (u : Setup) (before : List LinkWrite) (cs : List Completion) (s t : State) : Prop :=
  t.link.issued = s.link.issued ++ (before ++ runWrites u s.now s.signalsWith s.handed cs) ∧
    t.handed = cs.foldl (fun h c => h.next u s.now c) s.handed ∧
    t.cpl.cause.halt = s.cpl.cause.halt ∧ t.cpl.cause.badIndex = s.cpl.cause.badIndex

/-- What handing completions over may change. -/
def postParts : List Part := [.issued, .line, .slots, .coalescing, .cause]

/-! ## Host reads -/

/-- A host read of this many bytes at this address, begun now with its limit of 50 ms (R154). -/
def readFrom (addr : Addr) (bytes : Nat) (s : State) : ReadInProgress where
  addr := addr
  bytes := bytes
  timer := { started := s.now, duration := 50000 }

/-- The read of the record at a position of a submission ring: 64 bytes at the ring's address plus 64 times the position,
16 bytes and 16 times for the Buffer Ring (R144, R153). -/
def readAt (u : Setup) (position : Nat) (s : State) : RingId → ReadInProgress
  | .control => readFrom (u.control.addr + BitVec.ofNat 64 (64 * position)) 64 s
  | .capture => readFrom (u.capture.addr + BitVec.ofNat 64 (64 * position)) 64 s
  | .buffer => readFrom (u.buffer.addr + BitVec.ofNat 64 (16 * position)) 16 s

/-! ## Credit (R165) -/

/-- The requesters from the first of Table 66 up to this one. -/
def Requester.upTo : Requester → List Requester
  | .capture => [.capture]
  | .sequencer => [.capture, .sequencer]
  | .buffer => [.capture, .sequencer, .buffer]
  | .engine => [.capture, .sequencer, .buffer, .engine]

/-- The slots that the waiting requests of Table 66 up to this requester's ask for. -/
def State.askedUpTo (s : State) (r : Requester) : Nat := (r.upTo.map fun q => (s.waitingRequest q).getD 0).sum

/-- The waiting request of a requester was granted: the scheduler or the engine holds its slot, the frame holds its credit, or
the front cache entry was returned. -/
def Granted (s t : State) : Requester → Prop
  | .capture => t.sched.credit = .held
  | .sequencer => ∀ c n, s.requestingContext = some (c, n) → (t.ctx c).any Frame.creditHeld = true
  | .buffer => t.bufs.cache = s.bufs.cache.tail
  | .engine => t.engine.credit = .held

/-- The waiting request of a requester still waits. -/
def NotGranted (s t : State) : Requester → Prop
  | .capture => t.sched.credit = s.sched.credit
  | .sequencer => ∀ c n, s.requestingContext = some (c, n) → t.ctx c = s.ctx c
  | .buffer => t.bufs.cache = s.bufs.cache
  | .engine => t.engine = s.engine

/-! ## Control records -/

/-- A control record is being read, under these Setup Block values. -/
def State.readingControl (u : Setup) (s : State) : Prop := s.ring.ctlRead.isSome = true ∧ s.ring.setup = some u

/-- The Control Ring head after the record (R153). -/
def nextControlHead (u : Setup) (s : State) : Nat := (s.ring.ctlHead + 1) % u.control.size

/-- The engine after a record it has finished: IDLE, or asking for the next record's credit (R133, R138). -/
def engineAfterRecord (u : Setup) (s : State) : Engine :=
  if s.link.part = .running ∧ nextControlHead u s ≠ s.ring.ctlTail.toNat then
    { mode := .waitCredit, credit := .asked, job := none }
  else { mode := .idle, credit := .none, job := none }

/-- The record was read: its head advanced and the read is over (R153). -/
def RecordTaken (u : Setup) (s t : State) : Prop :=
  t.ring.ctlHead = nextControlHead u s ∧ t.ring.ctlRead = none

/-- The Progress Block write for a control record's head advance (R156). -/
def recordProgress (u : Setup) (s : State) : LinkWrite :=
  progressWrite u (nextControlHead u s) s.ring.capHead s.ring.bufHead

/-- The record was read and finished: the Progress Block, these completions behind it, and the engine at its next record
(R138, R153, R156, R157). -/
def RecordDone (u : Setup) (cs : List Completion) (s t : State) : Prop :=
  RecordTaken u s t ∧ Posts u [recordProgress u s] cs s t ∧ t.engine = engineAfterRecord u s

/-- The record was read and stays in hand, with no completion for it yet (R139). -/
def RecordHeld (u : Setup) (j : Job) (s t : State) : Prop :=
  RecordTaken u s t ∧ t.link.issued = s.link.issued ++ [recordProgress u s] ∧
    t.engine = { mode := .executing, credit := s.engine.credit, job := some j }

/-- The engine after the record in hand has completed: IDLE, or asking for the next record's credit (R133, R138). -/
def engineNext (s : State) : Engine :=
  if s.link.part = .running ∧ s.ring.ctlHead ≠ s.ring.ctlTail.toNat then
    { mode := .waitCredit, credit := .asked, job := none }
  else { mode := .idle, credit := .none, job := none }

/-- The tag of a FLUSH_STAGED record in hand (R120). -/
def State.flushRecord (s : State) : Option Word :=
  s.engine.job.bind fun j => if j.work = .flush then some j.tag else none

/-- The completion of a FLUSH_STAGED record (Table 46). -/
def flushDone (tag : Word) : Completion := .control { kind := 0x08, tag := tag, status := .done }

/-- What reading and finishing a control record may change, whatever the record does. -/
def recordParts : List Part := .ctlRing :: .engine :: postParts

/-- No requester waits for the sensor port (R110). -/
def State.noneWaits (s : State) : Prop :=
  s.sensor.replayWaits = false ∧ s.sensor.flushWaits = false ∧ s.sensor.engineWaits = false

/-- No FLUSH_STAGED record is in hand (R120). -/
def State.noFlushRecord (s : State) : Prop := s.engine.job.all (fun j => decide (j.work ≠ .flush)) = true

/-- The sensor port is busy or nothing waits for it, and no FLUSH_STAGED is in hand: a change elsewhere starts nothing at the
Sensor Link (R110, R120). -/
def State.portQuiet (s : State) : Prop := (s.sensor.port ≠ none ∨ s.noneWaits) ∧ s.noFlushRecord

/-! ## Checks as tables -/

/-- What the first failing check of a list reports; none where every check passes. -/
def firstFailed {α : Type} (checks : List (Bool × α)) : Option α := (checks.find? fun c => !c.1).map Prod.snd

/-- Table 59: the Setup Block checks, each with its detail. -/
def setupChecks (u : Setup) : List (Bool × Detail) :=
  [ (ringOk u.control 16 1024 64, .controlRing),
    (ringOk u.capture 16 1024 64, .captureRing),
    (ringOk u.buffer 16 4096 16, .bufferRing),
    (ringOk u.completion 32 4096 64, .completionRing),
    (decide (u.progress.toNat % 16 = 0 ∧ u.progress.toNat + 16 ≤ 2 ^ 64), .progressAddress),
    (decide (16 ≤ u.columns ∧ u.columns ≤ 4096 ∧ u.columns % 16 = 0), .columns),
    (decide (2 ≤ u.lines ∧ u.lines ≤ 4096), .lines),
    (decide (u.depth = 8 ∨ u.depth = 10 ∨ u.depth = 12), .depth),
    (decide (1 ≤ u.frameTimeout ∧ u.frameTimeout ≤ 10000), .frameTimeout),
    (decide (1 ≤ u.settleTime ∧ u.settleTime ≤ 1000), .settleTime),
    (decide (1 ≤ u.coalesceCount ∧ u.coalesceCount ≤ 64), .coalesceCount),
    (decide (u.coalesceDelay ≤ 10000), .coalesceDelay) ]

/-- Check 3 of Table 8 over a window list: each place has its number in the table and DEFINED, then not repeated. -/
def listChecks (windows : List WindowEntry) (list : List Nat) : List (Bool × Detail) :=
  (List.range list.length).flatMap fun i =>
    [ (decide (list.getD i 0 < 16) && (windowAt windows (list.getD i 0)).window.isSome, .windowUndefined),
      (decide (list.getD i 0 ∉ list.take i), .windowRepeated) ]

/-- Table 8: the capture request checks of a 64-byte record, each with its detail. The codes of the start source are those
of Table 75: 2 is LEVEL and 3 is INTERVAL. -/
def captureChecks (u : Setup) (windows : List WindowEntry) (data : List Byte) : List (Bool × Detail) :=
  [ (decide (field data 0 1 = 1), .badKind),
    (decide (1 ≤ field data 1 1 ∧ field data 1 1 ≤ 6), .windowCount) ] ++
  listChecks windows (parseWindowList data) ++
  [ ((parseWindowList data).all fun n => (windowAt windows n).window.all fun w => w.inside u.columns u.lines, .windowRange),
    (decide (1 ≤ field data 12 2 ∧ field data 12 2 ≤ 1024), .frameCount),
    (decide (field data 14 1 ≤ 3), .startSource),
    (decide (10 ≤ field data 16 4 ∧ field data 16 4 ≤ 10000000), .exposureTime),
    (decide (field data 14 1 = 3 → 1000 ≤ field data 20 4 ∧ field data 20 4 ≤ 60000000), .interval),
    (decide (fieldBit data 15 1 = true → field data 24 2 ≤ 5000), .strobeLead),
    (decide (field data 14 1 = 2 → fieldBit data 15 3 = true), .latchLevel),
    (decide (field data 26 2 ≤ 60000), .triggerTimeout) ]

/-- Table 22: the WINDOW_SET checks, each with its status and detail. -/
def windowChecks (u : Setup) (windows : List WindowEntry) (n : Nat) (w : WindowDef) :
    List (Bool × ControlStatus × Detail) :=
  [ (decide (n ≤ 15), .badField, .windowNumber),
    (decide ((windowAt windows n).refs = 0), .inUse, .none),
    (decide (1 ≤ w.width.toNat ∧ 1 ≤ w.height.toNat), .badField, .windowSize),
    (decide (w.skipX.toNat ∈ [1, 2, 4] ∧ w.skipY.toNat ∈ [1, 2, 4]), .badField, .skipValue),
    (decide ((if w.mosaic then 2 * w.skipX.toNat else w.skipX.toNat) ∣ w.width.toNat ∧
      (if w.mosaic then 2 * w.skipY.toNat else w.skipY.toNat) ∣ w.height.toNat), .badField, .skipMultiple),
    (decide (w.mosaic = true → 2 ∣ w.x.toNat ∧ 2 ∣ w.y.toNat), .badField, .mosaicOrigin),
    (decide (w.x.toNat + w.width.toNat ≤ u.columns ∧ w.y.toNat + w.height.toNat ≤ u.lines), .badField, .windowExtent),
    (decide (w.byteSize u.depth ≤ 16777216), .badField, .byteSize) ]

/-! ## HALTED and the resets (R178, R180) -/

/-- The host memory write of a slice that was cut off, if one was under way: a number of its bytes that the spec leaves
open, and never all of them (R107, R180; DESIGN CHOICE, log entry 6). -/
def CutOff (s : State) (w : List LinkWrite) : Prop :=
  w = [] ∨
    ∃ sl rest b n, s.store.slices = sl :: rest ∧ s.sliceBuffer sl = some b ∧ 0 < n ∧ (0 < sl.size → n < sl.size) ∧
      w = [.memory (b.addr + BitVec.ofNat 64 sl.offset) (sl.data.take n)]

/-- What entry to HALTED may leave changed. -/
def haltParts : List Part :=
  [.freeCount, .partState, .halt, .line, .issued, .ctlRing, .capRing, .bufRing, .setupRead, .engine, .queue, .stop, .interval,
    .flushMark, .capCredit, .contexts, .pointer, .latch, .missed, .lines, .receiver, .windows, .inHand, .store, .cache,
    .port, .waits, .staged, .coalescing, .cause]

/-- The state after entry to HALTED with a cause and a detail (R178 and the HALTED columns of Tables 12 to 69). A transaction
on the sensor port goes on, its record cleared; the replay and a flush keep their places (R130). -/
def Halted (cause : HaltCause) (detail : Detail) (s t : State) : Prop :=
  t.link.part = .halted ∧ t.link.haltCause = cause ∧ t.link.haltDetail = detail ∧
    t.cpl.cause = { s.cpl.cause with halt := true } ∧
    t.ring = { s.ring with setupRead := none, ctlRead := none, capRead := none, bufRead := none } ∧
    t.engine = State.reset.engine ∧ t.sched = State.reset.sched ∧
    t.seq = { State.reset.seq with trigger := s.seq.trigger, pin := s.seq.pin, hold := s.seq.hold } ∧
    t.recv = { s.recv with state := .idle, served := none, timer := none } ∧
    t.cutter.windows = s.cutter.windows.map (fun w => { w with refs := 0 }) ∧ t.cutter.inHand = [] ∧
    t.store.slices = [] ∧ t.bufs.cache = [] ∧
    t.sensor = { s.sensor with
      staged := []
      engineWaits := false
      port := s.sensor.port.map fun x => if x.owner = .engine then { x with owner := .cleared } else x } ∧
    t.cpl.unsignalled = 0 ∧ t.cpl.timer = none ∧ t.reserved = 0 ∧
    (∃ w, CutOff s w ∧ t.link.issued = s.link.issued ++ (w ++ messageSent s t)) ∧ unchangedBut haltParts s t

/-! ## STARTING and DISABLED (R158, R174, R177) -/

/-- What entry to STARTING may leave changed; the last three only where a SETUP_ADDR that is no multiple of 64 halts the part
at once. -/
def startedParts : List Part :=
  [.partState, .halt, .line, .issued, .ctlRing, .capRing, .bufRing, .setup, .setupRead, .engine, .queue, .stop, .interval,
    .flushMark, .capCredit, .contexts, .pointer, .latch, .missed, .lines, .receiver, .stray, .inHand, .store, .cache, .slots,
    .cplHead, .coalescing, .cause, .flush, .port] ++ [.windows, .waits, .staged]

/-- The state after entry to STARTING (R158, R174 and the last columns of Tables 12 to 69): the Setup Block read of 64 bytes at
SETUP_ADDR is begun, or the part halts for a SETUP_ADDR that is no multiple of 64 (R146). No flush is in progress, and the
WRITE of one that a halt left behind is kept, with the generation that it brings (R130, R131; DEDUCED, log entry 29). -/
def Started (s t : State) : Prop :=
  (t.ring.ctlHead = 0 ∧ t.ring.capHead = 0 ∧ t.ring.bufHead = 0 ∧ t.ring.setup = none ∧ t.ring.ctlRead = none ∧
    t.ring.capRead = none ∧ t.ring.bufRead = none) ∧
    (t.cpl.tail = 0 ∧ t.cpl.phase = true ∧ t.cpl.head = 0 ∧ t.cpl.unsignalled = 0 ∧ t.cpl.timer = none) ∧
    t.engine = State.reset.engine ∧ t.sched = State.reset.sched ∧
    t.seq = { State.reset.seq with trigger := s.seq.trigger, pin := s.seq.pin, hold := s.seq.hold } ∧
    t.recv = { s.recv with state := .idle, served := none, timer := none, stray := 0 } ∧ t.cutter.inHand = [] ∧
    t.store.slices = [] ∧ t.bufs.cache = [] ∧ t.link.issued = s.link.issued ++ messageSent s t ∧
    t.cpl.cause.completion = (s.cpl.cause.completion || decide (s.cpl.unsignalled ≠ 0)) ∧
    t.cpl.cause.badIndex = s.cpl.cause.badIndex ∧ unchangedBut startedParts s t ∧
    if s.link.setupLo.toNat % 64 = 0 then
      t.link.part = .starting ∧ t.link.haltCause = .none ∧ t.link.haltDetail = .none ∧
        t.cpl.cause.halt = s.cpl.cause.halt ∧
        t.ring.setupRead = some (readFrom (s.link.setupHi ++ s.link.setupLo) 64 s) ∧ t.cutter.windows = s.cutter.windows ∧
        t.sensor = { s.sensor with
          flush := none
          port := s.sensor.port.map fun x => match x.owner, s.sensor.flush with
            | .flush, some f => { x with owner := .leftFlush f.generation }
            | _, _ => x }
    else
      t.link.part = .halted ∧ t.link.haltCause = .setupInvalid ∧ t.link.haltDetail = .setupAddress ∧
        t.cpl.cause.halt = true ∧ t.ring.setupRead = none ∧
        t.cutter.windows = s.cutter.windows.map (fun w => { w with refs := 0 }) ∧
        t.sensor = { s.sensor with
          flush := none
          staged := []
          engineWaits := false
          port := s.sensor.port.map fun x => match x.owner, s.sensor.flush with
            | .flush, some f => { x with owner := .leftFlush f.generation }
            | .engine, _ => { x with owner := .cleared }
            | _, _ => x }

/-- Every condition of R177. That no slot is reserved and no credit request waits is their consequence (R164, R165). -/
def Finished (s : State) : Prop :=
  s.link.part = .draining ∧ s.sched.queue = [] ∧ s.sched.flushMark = none ∧ s.seq.ctx0 = none ∧ s.seq.ctx1 = none ∧
    s.bufs.cache = [] ∧ s.sensor.staged = [] ∧ s.engine.mode = .idle ∧ s.engine.credit = .none ∧ s.sched.credit = .none ∧
    s.ring.ctlRead = none ∧ s.ring.capRead = none ∧ s.ring.bufRead = none

/-- The settings generation once the WRITE of a flush that a halt left behind has ended, if one is on the port; otherwise the
generation in force (R118, R130; DEDUCED, log entry 29). -/
def State.leftGeneration (s : State) : Word :=
  match s.sensor.port.map Transaction.owner with
  | some (.leftFlush g) => g
  | _ => s.sensor.generation

/-- The settings generation once the port's work has been cut off: that of the flush in progress, if it has taken an entry
(R118, R128). -/
def State.cutGeneration (s : State) : Word :=
  match s.sensor.flush with
  | none => s.leftGeneration
  | some f => if f.taken = 0 then s.leftGeneration else f.generation

/-- The Sensor Link after a drain, by Table 49 (R131; that it cuts off what still holds the port is log entry 30, DESIGN
CHOICE). -/
def State.drainedSensor (s : State) : SensorLink :=
  { s.sensor with
    port := none
    replayWaits := false
    flushWaits := false
    engineWaits := false
    replayPos := 0
    replayed := 0
    failed := 0
    flush := none
    generation := s.cutGeneration }

/-- Table 61: a tail value is stored. -/
def TailTaken (r : RingId) (value : Nat) (s : State) : Prop :=
  s.link.part = .disabled ∨ s.link.part = .halted ∨
    (s.link.part = .starting ∧ value < if r = .buffer then 4096 else 1024) ∨
    ((s.link.part = .running ∨ s.link.part = .draining) ∧ value < s.ringSize r)

/-- The Capture Scheduler's credit and read after it has tested R3 with the queue, the flush mark and the tail that `t` holds: in
DRAINING with no mark it gives up a credit whose read has not begun (R166); otherwise, with a place in the queue and a
record in the ring, it asks for credit, or begins the read of the record at its head (R144, R153). -/
def CaptureTested (u : Setup) (s t : State) : Prop :=
  t.ring.capHead = s.ring.capHead ∧
    if t.link.part = .draining ∧ t.sched.flushMark = none then
      t.sched.credit = (if s.ring.capRead = none then .none else s.sched.credit) ∧ t.ring.capRead = s.ring.capRead
    else if (t.link.part = .running ∨ t.link.part = .draining) ∧ t.sched.queue.length < 4 ∧
        s.ring.capHead ≠ s.ring.capTail.toNat then
      t.sched.credit = (if s.sched.credit = .none then .asked else s.sched.credit) ∧
        t.ring.capRead = (if s.sched.credit = .held ∧ s.ring.capRead = none then
          some (readAt u s.ring.capHead s .capture) else s.ring.capRead)
    else t.sched.credit = s.sched.credit ∧ t.ring.capRead = s.ring.capRead

/-- Forward distance between two positions of a ring (R24, R145, R168). -/
def forward (size start finish : Nat) : Nat := (finish + size - start) % size

/-! ## Requests and buffers -/

/-- The Capture Queue entry that a record becomes (R4, R5, R10). -/
def placedEntry (u : Setup) (data : List Byte) (s : State) : Entry where
  tag := BitVec.ofNat 32 (field data 8 4)
  form :=
    if s.sched.flushMark.isSome then .flushedAtFetch
    else match firstFailed (captureChecks u s.cutter.windows data) with
      | some d => .rejected d
      | none => .valid (parseRequest ((parseSource (field data 14 1)).getD .software) data)
  mark := if s.sched.flushMark.isSome then .flushed else .none
  begun := 0
  ended := 0
  good := 0
  skipped := 0
  missed := 0

/-- The cache entry that a Buffer Ring entry becomes (R91, Table 77). -/
def placedBuffer (position : Nat) (data : List Byte) : CacheEntry where
  addr := BitVec.ofNat 64 (field data 0 8)
  length := field data 8 4
  tag := BitVec.ofNat 32 (field data 12 4)
  valid :=
    decide (8 ∣ field data 0 8 ∧ 64 ≤ field data 8 4 ∧ field data 8 4 ≤ 16777216 ∧ field data 0 8 + field data 8 4 ≤ 2 ^ 64)
  position := position

/-- The buffer that an assignment records of a cache entry (R95). -/
def CacheEntry.asBuffer (e : CacheEntry) : BufferRef := { tag := e.tag, addr := e.addr, length := e.length }

/-- An entry became the active request (R11): no stop mode, no end cause, the latch clear and no pending missed count (R38);
of an INTERVAL request the first tick came at once, early, and the next is measured from it (R12, R37), within the same
command (DEDUCED, log entry 31). -/
def BecameActive (e : Entry) (s t : State) : Prop :=
  t.sched.stopMode = .none ∧ t.sched.endCause = none ∧
    match (if e.mark = .none then e.request else none).filter fun r => decide (r.source = .interval) with
    | some r =>
      t.sched.interval = some { started := s.now, duration := r.interval } ∧ t.seq.latch = !r.discard ∧
        t.seq.missed = if r.discard then 1 else 0
    | none => t.sched.interval = none ∧ t.seq.latch = false ∧ t.seq.missed = 0

/-- Everything that R13 asks for the beginning of a frame of request `r` at the head: it is VALID and carries no stop mark, of
which R16 would end it (DEDUCED, log entry 26), more of its frames can begin, and the other context lets one begin. -/
def MayBegin (e : Entry) (r : CaptureRequest) (s : State) : Prop :=
  s.sched.queue.head? = some e ∧ e.request = some r ∧ e.mark = .none ∧ e.begun < r.frames ∧ s.sched.stopMode = .none ∧
    s.sched.endCause = none ∧ s.ctx s.seq.next = none ∧
    (s.ctx (other s.seq.next) = none ∨ s.inPhase (other s.seq.next) .closing = true ∨
      (r.overlap = true ∧ s.inPhase (other s.seq.next) .readout = true))

/-- Everything that R46 asks for the posting of frame `f` of a context: CLOSING, no slice of it in the store or still to come, its
credit held, and its index the frames ended of the request at the head. -/
def MayPost (c : CtxId) (e : Entry) (f : Frame) (s : State) : Prop :=
  s.sched.queue.head? = some e ∧ s.ctx c = some f ∧ f.phase = .closing ∧ f.creditHeld = true ∧ f.index = e.ended ∧
    (∀ sl ∈ s.store.slices, sl.ctx ≠ c) ∧ ∀ sl ∈ s.cutter.inHand, sl.ctx ≠ c

/-- One of the conditions of R16 for the end of the active request: it is REJECTED or carries a stop mark, or both contexts are
FREE and its frames have all begun, a stop mode is applied, or an end cause is present. -/
def RequestOver (e : Entry) (s : State) : Prop :=
  s.sched.queue.head? = some e ∧
    (e.request = none ∨ e.mark ≠ .none ∨
      (s.seq.ctx0 = none ∧ s.seq.ctx1 = none ∧
        (e.request.any (fun r => decide (e.begun = r.frames)) = true ∨ s.sched.stopMode ≠ .none ∨
          s.sched.endCause ≠ none)))

/-! ## Frames (chapter 2) -/

/-- The frame closes: an outcome set earlier is kept (R47), the timer of the state it leaves is stopped (R48, R49, R51), its
other timers stand stopped and its request for a return credit is withdrawn (R96; DESIGN CHOICE, log entry 18). -/
def Frame.closed (o : FrameOutcome) (f : Frame) : Frame :=
  { f with
    phase := .closing
    outcome := some (f.outcome.getD o)
    returnAsked := false
    leadTimer := none
    expTimer := none
    trigTimer := none }

/-- The actual exposure of a frame whose exposure stops now, unless one is recorded (R44, R49, R51). -/
def Frame.exposedUntil (now : Stamp) (f : Frame) : Frame :=
  { f with actual := some (f.actual.getD (now - f.expStart.getD now)) }

/-- Table 19, by state. -/
def Frame.afterPowerOff (now : Stamp) (f : Frame) : Frame :=
  if f.phase = .gap then f.closed .sensorOff
  else if f.phase = .exposing then (f.exposedUntil now).closed .sensorLost
  else if f.phase = .waitStart ∨ f.phase = .lead ∨ f.phase = .readout then f.closed .sensorLost
  else f

/-- The end cause that a power-off gives through one context (R15, R51). -/
def powerOffCause : Option Frame → Option EndCause
  | none => none
  | some f =>
    if f.phase = .reserving ∨ f.phase = .closing then none
    else (f.outcome.getD (if f.phase = .gap then .sensorOff else .sensorLost)).endCause

/-- R48, by state. -/
def Frame.afterGraceful (f : Frame) : Frame :=
  if f.phase = .reserving ∨ f.phase = .gap ∨ f.phase = .waitStart then f.closed .stopped else f

/-- Table 18, by state; `busy` says that the other context is in READOUT. -/
def Frame.afterAbort (now : Stamp) (busy : Bool) (f : Frame) : Frame :=
  if f.phase = .exposing then
    { f.exposedUntil now with
      outcome := some (f.outcome.getD .aborted)
      flags := { f.flags with discard := true }
      expTimer := none
      phase := if busy then .exposing else .readout
      endPending := busy }
  else if f.phase = .readout then
    { f with outcome := some (f.outcome.getD .aborted), flags := { f.flags with discard := true } }
  else if f.phase = .closing then f
  else f.closed .aborted

/-- The receiver after an expect notice for a context (R77). -/
def expecting (c : CtxId) (s : State) : Receiver where
  state := .expecting
  served := some c
  expected := 0
  timer := some { started := s.now, duration := 1000 * (s.ring.setup.map Setup.frameTimeout).getD 0 }
  stray := s.recv.stray

/-- While a stop mode is applied the active request has an end cause (R22, Table 11). -/
def State.stopForm (s : State) : Prop := s.sched.stopMode ≠ .none → s.sched.endCause ≠ none

/-- What applying a stop mode may change. -/
def stopAppliedParts : List Part := [.stop, .contexts, .lines, .receiver]

/-- A stop mode was applied to the active request: Table 11, and R48 or Table 18 at each context where the mode changed
(R22). -/
def StopApplied (k : StopKind) (s t : State) : Prop :=
  (t.sched.stopMode = if k = .abort ∨ s.sched.stopMode = .abort then .abort else .graceful) ∧
    t.sched.endCause =
      (if s.sched.stopMode = .none then
        some (s.sched.endCause.getD (if k = .graceful then EndCause.stopped else .aborted))
      else if s.sched.stopMode = .graceful ∧ k = .abort ∧ s.sched.endCause = some .stopped then some .aborted
      else s.sched.endCause) ∧
    (s.sched.stopMode = t.sched.stopMode → t.seq = s.seq ∧ t.recv = s.recv) ∧
    (s.sched.stopMode ≠ t.sched.stopMode → k = .graceful →
      (∀ c, t.ctx c = (s.ctx c).map Frame.afterGraceful) ∧ t.seq.expose = s.seq.expose ∧ t.seq.strobe = s.seq.strobe ∧
        t.recv = s.recv) ∧
    (s.sched.stopMode ≠ t.sched.stopMode → k = .abort →
      ∀ c, t.ctx c = (s.ctx c).map (Frame.afterAbort s.now (s.inPhase (other c) .readout)) ∧
        (s.inPhase c .exposing = true → t.seq.expose = false ∧ t.seq.strobe = false ∧
          t.recv = if s.inPhase (other c) .readout then s.recv else expecting c s) ∧
        (s.inPhase c .lead = true → t.seq.strobe = false) ∧
        (s.inPhase .c0 .exposing = false → s.inPhase .c1 .exposing = false →
          t.recv = s.recv ∧ t.seq.expose = s.seq.expose))

/-- A STOP by tag may reach the entry at this place of the queue (R21). -/
def eligible (request : Word) (s : State) (place : Nat) (e : Entry) : Bool :=
  decide (e.tag = request) && e.request.isSome && decide (e.mark = .none) &&
    (decide (place ≠ 0) || decide (s.sched.stopMode = .none))

/-- The start condition of a context is met now (R35, R39, R40): LEAD with STROBE, or EXPOSING with EXPOSE. -/
def StartMet (r : CaptureRequest) (c : CtxId) (f : Frame) (s t : State) : Prop :=
  if r.strobe = true ∧ 0 < r.lead then
    t.ctx c = some { f with
        phase := .lead, trigTimer := none, leadTimer := some { started := s.now, duration := r.lead } } ∧
      t.seq.strobe = true ∧ t.seq.expose = s.seq.expose
  else
    t.ctx c = some { f with
        phase := .exposing
        trigTimer := none
        leadTimer := none
        expStart := some s.now
        expTimer := some { started := s.now, duration := if f.flags.shortLevel then 10 else r.exposure } } ∧
      t.seq.expose = true ∧ t.seq.strobe = (s.seq.strobe || r.strobe)

/-- A context that carries frame `f` entered WAIT_START with the settings generation `gen` in force (R33): it recorded the
generation, the pending missed count joined the frame and the request, and it started at once for a SOFTWARE request or
on a set latch, or waits with its trigger-timeout timer. -/
def WaitStartEntered (r : CaptureRequest) (c : CtxId) (f : Frame) (gen : Word) (s t : State) : Prop :=
  let waiting : Frame :=
    { f with phase := .waitStart, generation := some gen, missed := min (f.missed + s.seq.missed) 65535 }
  t.seq.missed = 0 ∧
    t.sched.queue = s.sched.queue.head?.toList.map
      (fun e => { e with missed := min (e.missed + s.seq.missed) 65535 }) ++ s.sched.queue.tail ∧
    (r.source = .software → StartMet r c waiting s t ∧ t.seq.latch = s.seq.latch) ∧
    (r.source ≠ .software → s.seq.latch = true →
      StartMet r c { waiting with flags := { waiting.flags with latchedStart := true } } s t ∧ t.seq.latch = false) ∧
    (r.source ≠ .software → s.seq.latch = false →
      t.ctx c = some (if r.timeout = 0 then waiting
        else { waiting with trigTimer := some { started := s.now, duration := 1000 * r.timeout } }) ∧
        t.seq.latch = false ∧ t.seq.expose = s.seq.expose ∧ t.seq.strobe = s.seq.strobe)

/-- A flush began on a free port with the sensor side as `v`: the generation is fixed and the front entry is being written
(R116, R117). -/
def FlushBegun (v : SensorLink) (s t : State) : Prop :=
  ∀ e rest, v.staged = e :: rest →
    t.sensor.staged = { e with inProgress := true } :: rest ∧
      t.sensor.flush = some { generation := v.generation + 1, taken := 1 } ∧
      t.sensor.port = some
        { owner := .flush, op := .write e.address e.value, timer := { started := s.now, duration := 2000 } } ∧
      t.noneWaits

/-- The frame of a context closed with an outcome, which is an end cause of the request where it is request-ending and none
is set (R15, R47). -/
def ClosedNow (c : CtxId) (o : FrameOutcome) (f : Frame) (s t : State) : Prop :=
  t.ctx c = some (f.closed o) ∧ t.sched.stopMode = s.sched.stopMode ∧
    t.sched.endCause = (s.sched.endCause <|> (f.outcome.getD o).endCause)

/-- A context with frame `f` in GAP evaluated, the sensor side being `v`, by the cases of Table 14 (R31 to R33). -/
def GapTaken (r : CaptureRequest) (c : CtxId) (f : Frame) (v : SensorLink) (s t : State) : Prop :=
  match v.power, v.flush, v.staged with
  | .off, _, _ => ClosedNow c .sensorOff f s t
  | .settling, _, _ => t.ctx c = some f
  | .replaying, _, _ => t.ctx c = some f
  | .ready, some _, _ => t.ctx c = some f
  | .ready, none, [] => WaitStartEntered r c f v.generation s t
  | .ready, none, _ :: _ =>
    t.ctx c = some f ∧
      (s.inPhase (other c) .readout = false → v.port ≠ none → t.sensor.flushWaits = true) ∧
      (s.blocksFlush (other c) = false → v.port = none → FlushBegun v s t)

/-- What that may change. -/
def gapParts (c : CtxId) (v : SensorLink) (s : State) : List Part :=
  match v.power, v.flush, v.staged with
  | .off, _, _ => [.contexts, .stop]
  | .settling, _, _ => [.contexts]
  | .replaying, _, _ => [.contexts]
  | .ready, some _, _ => [.contexts]
  | .ready, none, [] => [.contexts, .lines, .latch, .missed, .queue]
  | .ready, none, _ :: _ =>
    if s.inPhase (other c) .readout then [.contexts]
    else if v.port = none then [.contexts, .staged, .flush, .port, .waits] else [.contexts, .waits]

/-- A context with its frame credit went through its assignments (R95 to R97): it asks for a return, it waits for a buffer or
closes SKIPPED with the cache empty, or every assignment has its buffer and it evaluates GAP. -/
def BuffersTried (r : CaptureRequest) (c : CtxId) (f : Frame) (served : List Assignment × List CacheEntry × Served)
    (s t : State) : Prop :=
  match served.2.2 with
  | .returnFront => t.ctx c = some { f with assignments := served.1, returnAsked := true }
  | .cacheEmpty =>
    if r.skip then ClosedNow c .skipped { f with assignments := served.1 } s t
    else t.ctx c = some { f with assignments := served.1 }
  | .allServed => GapTaken r c { f with assignments := served.1, phase := .gap } s.sensor s t

/-- What that may change. -/
def triedParts (c : CtxId) (served : List Assignment × List CacheEntry × Served) (s : State) : List Part :=
  match served.2.2 with
  | .returnFront => [.contexts]
  | .cacheEmpty => [.contexts, .stop]
  | .allServed => gapParts c s.sensor s

/-- A start event that meets no context in WAIT_START (R37). -/
def EarlyTaken (r : CaptureRequest) (s t : State) : Prop :=
  if r.discard = false ∧ s.seq.latch = false then t.seq.latch = true ∧ t.seq.missed = s.seq.missed
  else t.seq.latch = s.seq.latch ∧ t.seq.missed = min (s.seq.missed + 1) 65535

/-- The exposure of a context ended: EXPOSE and STROBE deasserted, the actual exposure recorded, READOUT, and the receiver
told to expect the frame (R44). -/
def ExposureEnded (c : CtxId) (f : Frame) (s t : State) : Prop :=
  t.ctx c = some { f.exposedUntil s.now with phase := .readout, endPending := false, expTimer := none } ∧
    t.seq.expose = false ∧ t.seq.strobe = false ∧
    t.recv = expecting c s

/-- Table 16: the outcome of a frame whose readout ends, where none was set earlier. -/
def Frame.endedOutcome (f : Frame) : FrameOutcome :=
  if f.timedOut then .timeout else if f.flags.overrun then .overrun else if f.flags.sequence then .sequence else .good

/-- A readout ended with what the receiver recorded in the frame (R45, R47): the context closes; a deferred exposure of the
other context ends then (R43). -/
def ReadoutEnded (c : CtxId) (f : Frame) (s t : State) : Prop :=
  t.ctx c = some (f.closed f.endedOutcome) ∧
    t.sched.endCause = (s.sched.endCause <|> (f.outcome.bind FrameOutcome.endCause)) ∧
    if (s.ctx (other c)).any (fun g => decide (g.phase = .exposing) && g.endPending) then
      ∀ g, s.ctx (other c) = some g →
        t.ctx (other c) = some { g.exposedUntil s.now with phase := .readout, endPending := false, expTimer := none } ∧
          t.seq.expose = false ∧ t.seq.strobe = false ∧ t.recv.state = .expecting ∧ t.recv.served = some (other c) ∧
          t.recv.expected = 0 ∧ t.recv.timer = (expecting c s).timer
    else
      t.ctx (other c) = s.ctx (other c) ∧ t.seq = { s.seq with ctx0 := t.seq.ctx0, ctx1 := t.seq.ctx1 } ∧
        t.recv.state = .idle ∧ t.recv.served = none ∧ t.recv.timer = none ∧ t.recv.expected = s.recv.expected

/-- A readout of `c` ended with frame `f`, with the other context in GAP: `c` closes as in `ReadoutEnded`, and the other
context evaluates behind it (R31 to R33, R45). -/
def ReadoutEndedBesideGap (c : CtxId) (f : Frame) (s t : State) : Prop :=
  ∀ g r, s.ctx (other c) = some g → g.phase = .gap → s.request = some r →
    ∀ m, m = { s.setCtx c (some (f.closed f.endedOutcome)) with
      sched := { s.sched with endCause := s.sched.endCause <|> (f.outcome.bind FrameOutcome.endCause) } } →
    t.ctx c = some (f.closed f.endedOutcome) ∧ GapTaken r (other c) g s.sensor m t ∧
      timedBut (gapParts (other c) s.sensor m ++ [.receiver, .stray, .contexts, .stop]) s t

/-- A readout of `c` ended with frame `f` while a FLUSH_STAGED waits with settings staged and nothing else holds its flush
back: the flush begins on a free port, and waits for a busy one (R45, R110, R116, R120). -/
def ReadoutLiftsFlush (c : CtxId) (f : Frame) (s t : State) : Prop :=
  s.flushRecord.isSome = true → s.noneWaits → s.sensor.power = .ready → s.sensor.flush = none → s.sensor.staged ≠ [] →
    s.blocksFlush (other c) = false →
    t.ctx c = some (f.closed f.endedOutcome) ∧ t.ctx (other c) = s.ctx (other c) ∧
      t.sched.stopMode = s.sched.stopMode ∧
      t.sched.endCause = (s.sched.endCause <|> (f.outcome.bind FrameOutcome.endCause)) ∧
      t.recv.state = .idle ∧ t.recv.served = none ∧ t.recv.timer = none ∧ t.recv.expected = s.recv.expected ∧
      (s.sensor.port = none → FlushBegun s.sensor s t ∧
        timedBut [.receiver, .stray, .contexts, .stop, .staged, .flush, .port] s t) ∧
      (s.sensor.port ≠ none → t.sensor = { s.sensor with flushWaits := true } ∧
        timedBut [.receiver, .stray, .contexts, .stop, .waits] s t)

/-! ## Sensor power (chapter 6) -/

/-- The staged entry whose WRITE a removal of power cuts off (R128). -/
def cutEntry (s : State) : Option Staged :=
  if s.sensor.flush.isSome then s.sensor.staged.head?.filter Staged.inProgress else none

/-- The completions of the entry cut off, if there is one (R128). -/
def cutCompletions (s : State) : List Completion :=
  (cutEntry s).toList.map fun e => .control { kind := 0x05, tag := e.tag, status := .sensorOff }

/-- What the removal of power leaves at the contexts, the lines, the receiver, the request's end cause, the staged list and
the flush (R51, R88, R126 steps 1 to 3, R128). The order in which the two contexts take the notice is open (DESIGN CHOICE, log entry 7). -/
def PowerRemoved (s t : State) : Prop :=
  (∀ c, t.ctx c = (s.ctx c).map (Frame.afterPowerOff s.now)) ∧
    ((s.inPhase .c0 .exposing || s.inPhase .c1 .exposing) = true → t.seq.expose = false ∧ t.seq.strobe = false) ∧
    ((s.inPhase .c0 .lead || s.inPhase .c1 .lead) = true → t.seq.strobe = false) ∧
    ((s.inPhase .c0 .exposing || s.inPhase .c1 .exposing) = false → t.seq.expose = s.seq.expose ∧
      ((s.inPhase .c0 .lead || s.inPhase .c1 .lead) = false → t.seq.strobe = s.seq.strobe)) ∧
    (t.sched.endCause = (s.sched.endCause <|> powerOffCause s.seq.ctx0 <|> powerOffCause s.seq.ctx1) ∨
      t.sched.endCause = (s.sched.endCause <|> powerOffCause s.seq.ctx1 <|> powerOffCause s.seq.ctx0)) ∧
    t.sched.stopMode = s.sched.stopMode ∧
    (t.recv = if s.recv.state = .idle then s.recv else { s.recv with state := .idle, served := none, timer := none }) ∧
    t.sensor.staged = (if (cutEntry s).isSome then s.sensor.staged.tail else s.sensor.staged) ∧
    t.sensor.port = none ∧ t.sensor.replayWaits = false ∧ t.sensor.flush = none ∧
    t.sensor.generation = s.cutGeneration

/-- What the removal of power may change. -/
def powerRemovedParts : List Part :=
  [.contexts, .stop, .lines, .receiver, .freeCount, .staged, .port, .waits, .flush, .generation, .mirror, .power, .replay]

/-- Power comes up from OFF for a record with this replay flag (R124 steps 1 and 2). -/
def PoweringUp (replay : Bool) (mirror : List (Nat × MirrorEntry)) (s t : State) : Prop :=
  t.sensor.power = .settling ∧ t.sensor.enableOut = true ∧
    t.sensor.settle = some { started := s.now, duration := 1000 * (s.ring.setup.map Setup.settleTime).getD 0 } ∧
    t.sensor.replayFlag = replay ∧ t.sensor.replayPos = 0 ∧ t.sensor.replayed = 0 ∧ t.sensor.failed = 0 ∧
    t.sensor.mirror = (if replay then mirror else mirror.filter fun p => !p.2.stale)

/-- The sensor became READY at the end of a power-up whose replay has these counts (R113, R123 to R125): an ON or CYCLE in hand
completes DONE with them, a joined ON completes ALREADY with none, a WRITE or READ that waited begins its transaction, and
a FLUSH_STAGED that waits with settings staged gets its flush where no context holds it back (R116, R120). -/
def ReadyReached (u : Setup) (replayed failed : Nat) (s t : State) : Prop :=
  t.sensor.power = .ready ∧ t.sensor.replayPos = 0 ∧ t.sensor.replayed = 0 ∧ t.sensor.failed = 0 ∧
    match s.engine.job with
    | none => Posts u [] [] s t ∧ t.engine = s.engine
    | some j =>
      match j.work with
      | .power _ _ joined =>
        Posts u [] [.control
          { kind := 0x07, tag := j.tag, status := if joined then .already else .done
            replayed := if joined then 0 else replayed, failed := if joined then 0 else failed }] s t ∧
          t.engine = engineNext s
      | .write a v =>
        Posts u [] [] s t ∧ t.engine = s.engine ∧
          (s.inPhase .c0 .gap = false → s.inPhase .c1 .gap = false → t.sensor.port = some
            { owner := .engine, op := .write a v, timer := { started := s.now, duration := 2000 } })
      | .read a =>
        Posts u [] [] s t ∧ t.engine = s.engine ∧
          (s.inPhase .c0 .gap = false → s.inPhase .c1 .gap = false → t.sensor.port = some
            { owner := .engine, op := .read a, timer := { started := s.now, duration := 2000 } })
      | .flush =>
        s.blocksFlush .c0 = false → s.blocksFlush .c1 = false → s.sensor.flush = none → s.sensor.staged ≠ [] →
          Posts u [] [] s t ∧ t.engine = s.engine ∧ FlushBegun s.sensor s t

/-- The transaction for which a record in hand asks (R113). -/
def Work.op : Work → Option PortOp
  | .write a v => some (.write a v)
  | .read a => some (.read a)
  | .power _ _ _ => none
  | .flush => none

/-- A transaction of this owner, begun now (R109). -/
def begunNow (owner : PortOwner) (op : PortOp) (s : State) : Transaction where
  owner := owner
  op := op
  timer := { started := s.now, duration := 2000 }

/-- The free port passed on to the first that waits for it, in the order replay, flush, Control Engine, the sensor side being
`v` with the port free (R110, R113, R116, R125); `others` is what the event may change besides. -/
def PortPassedOn (others : List Part) (v : SensorLink) (s t : State) : Prop :=
  (∀ p, v.replayWaits = true → v.power = .replaying → s.noFlushRecord → nextStale v.replayPos v.mirror = some p →
    t.sensor = { v with
      replayWaits := false
      replayPos := p.1 + 1
      port := some (begunNow .replay (.write (BitVec.ofNat 16 p.1) p.2.value) s) } ∧
      timedBut (others ++ [.port, .waits, .replay]) s t) ∧
  (∀ e rest, v.replayWaits = false → v.flushWaits = true → v.power = .ready → v.flush = none →
    s.blocksFlush .c0 = false → s.blocksFlush .c1 = false → v.staged = e :: rest →
    t.sensor = { v with
      flushWaits := false
      staged := { e with inProgress := true } :: rest
      flush := some { generation := v.generation + 1, taken := 1 }
      port := some (begunNow .flush (.write e.address e.value) s) } ∧
      timedBut (others ++ [.port, .waits, .staged, .flush]) s t) ∧
  ∀ j op, v.replayWaits = false → v.flushWaits = false → v.engineWaits = true → s.engine.job = some j →
    j.work.op = some op →
    t.sensor = { v with engineWaits := false, port := some (begunNow .engine op s) } ∧
      timedBut (others ++ [.port, .waits]) s t

/-- A replay is under way and neither holds the port nor waits for it: the end of a drain took the port from it (R129, R131;
DESIGN CHOICE, log entry 30). -/
def ReplayTakenOff (s : State) : Prop :=
  s.sensor.power = .replaying ∧ s.sensor.replayWaits = false ∧ s.sensor.port = none

/-! ## Safe states -/

/-- The lists of the part keep their bounds: the Capture Queue (R10), the Buffer Cache (R92), the Staged Settings List
(R114) and the Output Store (R100); a read under way has a place for what it reads (R3, R93). -/
def State.listsBounded (s : State) : Prop :=
  s.sched.queue.length ≤ 4 ∧ (s.ring.capRead.isSome = true → s.sched.queue.length < 4) ∧
    s.bufs.cache.length ≤ 32 ∧ (s.ring.bufRead.isSome = true → s.bufs.cache.length < 32) ∧
    s.sensor.staged.length ≤ 32 ∧ (s.store.slices.map Slice.size).sum ≤ 131072

/-- The address of a transaction. -/
def PortOp.address : PortOp → Half
  | .write a _ => a
  | .read a => a

/-- The sensor address a record in hand names, if any. -/
def Work.address : Work → Option Half
  | .write a _ => some a
  | .read a => some a
  | .power _ _ _ => none
  | .flush => none

/-- The Settings Mirror has its one form, and every sensor address in hand is one of the 512 (R109, R111, R114). -/
def State.sensorForm (s : State) : Prop :=
  mirrorWf s.sensor.mirror = true ∧ (∀ e ∈ s.sensor.staged, e.address.toNat < 512) ∧
    (∀ t, s.sensor.port = some t → t.op.address.toNat < 512) ∧
    (∀ j a, s.engine.job = some j → j.work.address = some a → a.toNat < 512)

/-- The Segment Order Table holds a permutation of 0 to 15 and the Window Table has its 16 entries (R57, R67). -/
def State.tablesForm (s : State) : Prop := s.cutter.windows.length = 16 ∧ isOrder s.cutter.order = true

/-- The interrupt line stands as R171 says. -/
def State.lineFollows (s : State) : Prop := s.link.line = (!s.link.msi && s.signalling)

/-- The 1 µs of the TRIGGER filter runs exactly while the level at the pin is not the filtered one (R185). -/
def State.filterForm (s : State) : Prop := s.seq.hold.isSome = true ↔ s.seq.pin ≠ s.seq.trigger

/-- The transaction in progress is the replay's. -/
def State.replayHoldsPort (s : State) : Prop := ∃ t, s.sensor.port = some t ∧ t.owner = .replay

/-- The sensor power enable is asserted in every power state but OFF (R123), the settle timer runs in SETTLING alone (R124),
and a replay waits or runs in REPLAYING alone (R125). -/
def State.powerForm (s : State) : Prop :=
  s.sensor.enableOut = decide (s.sensor.power ≠ .off) ∧
    (s.sensor.settle.isSome = true ↔ s.sensor.power = .settling) ∧
    (s.sensor.replayWaits = true → s.sensor.power = .replaying ∧ ¬ s.replayHoldsPort) ∧
    (s.replayHoldsPort → s.sensor.power = .replaying)

/-- With no replay under way no position and no counts are held, and the WRITE of a replay is of an entry below the replay
position (R124, R125, Table 49; DESIGN CHOICE, log entry 17). -/
def State.replayForm (s : State) : Prop :=
  (s.sensor.power ≠ .replaying → s.sensor.replayPos = 0 ∧ s.sensor.replayed = 0 ∧ s.sensor.failed = 0) ∧
    ∀ t, s.sensor.port = some t → t.owner = .replay → t.op.address.toNat < s.sensor.replayPos

/-- At most the front staged entry is IN_PROGRESS, and only while a flush is in progress; a flush in progress has taken an
entry and has its WRITE on the port (R114, R116, R117, R130). -/
def State.flushForm (s : State) : Prop :=
  (∀ e ∈ s.sensor.staged.tail, e.inProgress = false) ∧
    (∀ e, s.sensor.staged.head? = some e → e.inProgress = true → s.sensor.flush.isSome = true) ∧
    ∀ f, s.sensor.flush = some f →
      f.taken ≠ 0 ∧ ∃ t a v, s.sensor.port = some t ∧ t.owner = .flush ∧ t.op = .write a v

/-- While a flush is in progress no Frame Context is in WAIT_START, LEAD, EXPOSING or READOUT, the flush brings the next
generation into force, and so does the WRITE of a flush that a halt left behind, with no flush in progress; any other WRITE
of a flush on the port belongs to a flush in progress (R116, R118, R130). -/
def State.flushApart (s : State) : Prop :=
  (∀ f, s.sensor.flush = some f →
    s.blocksFlush .c0 = false ∧ s.blocksFlush .c1 = false ∧ f.generation = s.sensor.generation + 1) ∧
    (∀ t, s.sensor.port = some t → t.owner = .flush → s.sensor.flush.isSome = true) ∧
    ∀ t g, s.sensor.port = some t → t.owner = .leftFlush g →
      s.sensor.flush = none ∧ g = s.sensor.generation + 1

/-- A context is in one of the states before READOUT. -/
def State.beforeReadout (s : State) (c : CtxId) : Bool :=
  (s.ctx c).any fun f => !decide (f.phase = .readout) && !decide (f.phase = .closing)

/-- R29, with what R44, R76 and R96 say of the lines, of the receiver and of a return: at most one context is before READOUT,
at most one in READOUT, every context that is not FREE belongs to the live request at the head, the receiver serves the
context in READOUT and no other, EXPOSE and STROBE stand only for a context that exposes or leads, and only a context in
RESERVING that holds its credit waits for a return. -/
def State.framesApart (s : State) : Prop :=
  ¬ (s.beforeReadout .c0 = true ∧ s.beforeReadout .c1 = true) ∧
    ¬ (s.inPhase .c0 .readout = true ∧ s.inPhase .c1 .readout = true) ∧
    (∀ c, (s.ctx c).isSome = true → s.liveRequest.isSome = true) ∧
    (∀ c, s.recv.served = some c ↔ s.inPhase c .readout = true) ∧
    (s.recv.state = .idle ↔ s.recv.served = none) ∧
    (s.seq.expose = true → s.inPhase .c0 .exposing = true ∨ s.inPhase .c1 .exposing = true) ∧
    (s.seq.strobe = true → (s.inPhase .c0 .lead = true ∨ s.inPhase .c0 .exposing = true) ∨
      s.inPhase .c1 .lead = true ∨ s.inPhase .c1 .exposing = true) ∧
    (∀ c, (s.ctx c).all (fun f => !f.returnAsked || (decide (f.phase = .reserving) && f.creditHeld)) = true)

/-- The valid requests in the Capture Queue that name a window. -/
def State.namers (s : State) (n : Nat) : List Entry :=
  s.sched.queue.filter fun e => e.request.any fun r => decide (n ∈ r.windows)

/-- The reference count of each Window Table entry is the number of valid requests in the Capture Queue that name it, and each
valid request names different windows of the table (R8). -/
def State.refsCounted (s : State) : Prop :=
  s.cutter.windows.length = 16 ∧ (∀ n, n < 16 → (windowAt s.cutter.windows n).refs = (s.namers n).length) ∧
    (∀ e ∈ s.sched.queue, ∀ r, e.request = some r → r.windows.Nodup ∧ ∀ n ∈ r.windows, n < 16)

/-- The part state is one in which the part does no work. -/
def State.atRest (s : State) : Prop :=
  s.link.part = .disabled ∨ s.link.part = .starting ∨ s.link.part = .halted

/-- In DISABLED, STARTING and HALTED no block holds work; the Setup Block is read in STARTING alone, and the engine has a record
in hand in EXECUTING alone (R132, R173, R174, R178). -/
def State.restForm (s : State) : Prop :=
  (s.atRest →
    s.sched.queue = [] ∧ s.sched.credit = .none ∧ s.seq.ctx0 = none ∧ s.seq.ctx1 = none ∧ s.bufs.cache = [] ∧
      s.sensor.staged = [] ∧ s.engine = State.reset.engine ∧ s.ring.ctlRead = none ∧ s.ring.capRead = none ∧
      s.ring.bufRead = none) ∧
    (s.ring.setupRead.isSome = true → s.link.part = .starting) ∧
    (s.engine.job.isSome = true → s.engine.mode = .executing)

/-- The completion accounts: slots written and not freed and slots reserved never exceed the Completion Ring size less one
(R164), with what that rests on: each read under way holds its credit (R3, R133), a record in hand holds its own (R132), a
frame's credit fits its completion (R27), and at rest nothing is reserved (R158, R166, R177). -/
def State.creditForm (s : State) : Prop :=
  (s.ring.setup = none → s.atRest ∧ s.cpl.tail = 0 ∧ s.cpl.head = 0) ∧
    (s.ring.setup.all fun u => decide (s.cpl.tail < u.completion.size ∧ s.cpl.head.toNat < u.completion.size ∧
      s.unfreed + s.reserved ≤ u.completion.size - 1)) = true ∧
    (s.link.part = .starting → s.ring.setup = none) ∧ (s.atRest → s.reserved = 0) ∧
    (s.ring.setupRead.isSome = true → s.link.part = .starting) ∧
    (s.ring.capRead.isSome = true → s.sched.credit = .held) ∧
    (s.ring.ctlRead.isSome = true → s.engine.credit = .held ∧ s.engine.mode = .waitCredit) ∧
    (s.engine.job.isSome = true → s.engine.credit = .held ∧ s.engine.mode = .executing) ∧
    (∀ c, (s.ctx c).all (fun f => decide (f.slots = if f.assignments.length ≤ 2 then 1 else 2) &&
      (!f.returnAsked || (decide (f.phase = .reserving) && f.creditHeld))) = true)

end Sys2Proof.Machine
end

