-- ==== Sys2Proof/Certificates/Slice0/Obligations.lean ====
section
/-! DEFINITION. The statements for the provers. Each says of a command, in every state that meets its hypotheses, that exec
answers a next state and what that state holds. The bytes that the part writes for a completion (`Posts`) and for a head
advance (`progressWrite`) are those of Tables 79, 80 and 82, spelled out in Sys2Proof/Safety.lean. `unchangedBut` is the
frame, and `timedBut` the frame of an event after which the interval timer stops where R12 says so. -/

open Sys2Proof Sys2Proof.Machine

/-! ## Steps and encodings -/

/-- A step runs the command at the front of the queue on the state with the queue's rest. -/
def Obligations.StepRunsTheFrontCommand : Prop :=
  ∀ (c : Instr) (rest : List Instr) (s : State), s.pending = c :: rest → step s = exec c { s with pending := rest }

/-- The model's own choice (log entry 2): on an empty queue the part's next ready event is queued, or one microsecond passes
and nothing else changes. Where no event is ready, a replay that the end of a drain took the port from goes on first, with
its next STALE entry written or READY reached (log entry 30, DESIGN CHOICE). -/
def Obligations.EmptyQueueLetsTheTimebaseAdvance : Prop :=
  ∀ s : State, s.pending = [] →
    (∀ c, s.readyEvent = some c → step s = .next { s with pending := [c] }) ∧
      (s.readyEvent = none → ¬ ReplayTakenOff s → step s = .next { s with now := s.now + 1 }) ∧
      (s.readyEvent = none → ReplayTakenOff s → ∃ t, step s = .next t ∧
        (∀ p, nextStale s.sensor.replayPos s.sensor.mirror = some p → s.noFlushRecord →
          t.sensor = { s.sensor with
            replayPos := p.1 + 1
            port := some (begunNow .replay (.write (BitVec.ofNat 16 p.1) p.2.value) s) } ∧ timedBut [.port, .replay] s t) ∧
        (∀ u, nextStale s.sensor.replayPos s.sensor.mirror = none → s.ring.setup = some u → s.noneWaits →
          ReadyReached u s.sensor.replayed s.sensor.failed s t ∧
            (s.inPhase .c0 .gap = false → s.inPhase .c1 .gap = false → s.noFlushRecord →
              timedBut ([.power, .replay, .port, .engine] ++ postParts) s t)))

/-- Every control record is 64 bytes and reads back as the command it was written from (Table 76). -/
def Obligations.ControlRecordsReadBack : Prop :=
  ∀ (i : Instr) (data : List Byte), i.WellFormed = true → encodeControl i = some data →
    data.length = 64 ∧ decodeControl data = i

/-- The register window: which command each write is, by width, offset and value (R184, Table 83), and a write that is no
register's has no effect. That a write of more than four bytes is such a write is log entry 12 (DEDUCED from R184). -/
def Obligations.RegisterWindowWrites : Prop :=
  (∀ (offset : BitVec 12) (width : Nat) (value : Word) (pin : Level),
    (decodeRegisterWrite offset width value pin).WellFormed = true ∧
      (¬ (width = 4 ∧ isWritableOffset offset = true) →
        decodeRegisterWrite offset width value pin = .registerWriteOther offset width value)) ∧
    (∀ (value : Word) (pin : Level),
      decodeRegisterWrite 0x04 4 value pin =
          (if value.getLsbD 1 then .partReset (value.getLsbD 0) pin
          else if value.getLsbD 0 then .enableSet else .enableClear) ∧
        decodeRegisterWrite 0x0C 4 value pin = .intCauseWrite value ∧
        decodeRegisterWrite 0x10 4 value pin = .intMaskWrite value ∧
        decodeRegisterWrite 0x14 4 value pin = .setupAddrWrite .lo value ∧
        decodeRegisterWrite 0x18 4 value pin = .setupAddrWrite .hi value ∧
        decodeRegisterWrite 0x1C 4 value pin = .tailWrite .control value ∧
        decodeRegisterWrite 0x20 4 value pin = .tailWrite .capture value ∧
        decodeRegisterWrite 0x24 4 value pin = .tailWrite .buffer value ∧
        decodeRegisterWrite 0x28 4 value pin = .cplHeadWrite value) ∧
    ∀ (offset : BitVec 12) (width : Nat) (value : Word) (s : State),
      exec (.registerWriteOther offset width value) s = .next s

/-! ## Resets -/

/-- Power-on, a function reset and PartReset leave every block at its power-on value; what was issued on the Host Link
stands, PartReset alone keeps the message interrupt enable, and the filtered TRIGGER level is the pin's, with no transition
held (R180, R185). That the replay flag is off then, and the replay position and counts, which Table 49 gives as none, are 0,
is log entry 17 (DESIGN CHOICE). -/
def Obligations.ResetsLeavePowerOnValues : Prop :=
  ∀ (s : State) (pin : Level) (enable : Bool),
    (∃ t w, exec (.powerOn pin) s = .next t ∧ exec (.functionReset pin) s = .next t ∧ CutOff s w ∧
      t = { State.reset with
        link := { State.reset.link with issued := s.link.issued ++ w }
        seq := { State.reset.seq with trigger := pin, pin := pin }
        free := t.free
        pending := s.pending }) ∧
      ∃ t w, exec (.partReset enable pin) s = .next t ∧ CutOff s w ∧
        t = { State.reset with
          link := { State.reset.link with issued := s.link.issued ++ w, msi := s.link.msi }
          seq := { State.reset.seq with trigger := pin, pin := pin }
          free := t.free
          pending := s.pending }

/-- What a host reads of the register window in every state: the identity, Enable, the part state, power state, halt cause and
detail of STATUS, the causes and their enables, and the addresses and indices as stored; other offsets read 0, and a
narrower read returns the addressed bytes (R181, R184, Table 83). After a part reset all but the identity reads 0
(Table 73), and the invariants below hold of the state after reset. -/
def Obligations.ResetReadsZeroAndIsSafe : Prop :=
  (State.reset.register 0x00 = 0x0FC20100 ∧ State.reset.register 0x04 = 0 ∧ State.reset.register 0x08 = 0 ∧
    State.reset.register 0x0C = 0 ∧ State.reset.register 0x10 = 0 ∧ State.reset.register 0x14 = 0 ∧
    State.reset.register 0x18 = 0 ∧ State.reset.register 0x1C = 0 ∧ State.reset.register 0x20 = 0 ∧
    State.reset.register 0x24 = 0 ∧ State.reset.register 0x28 = 0) ∧
    (∀ s : State,
      s.register 0x00 = 0x0FC20100 ∧ s.register 0x04 = (if s.link.enable then 1 else 0) ∧
        s.register 0x08 = BitVec.ofNat 32
          ((match s.link.part with
              | .disabled => 0 | .starting => 1 | .running => 2 | .draining => 3 | .halted => 4) +
            16 * (match s.sensor.power with
              | .off => 0 | .settling => 1 | .replaying => 2 | .ready => 3) +
            256 * (match s.link.haltCause with
              | .none => 0 | .setupRead => 1 | .setupInvalid => 2 | .fetchRead => 3) +
            65536 * s.link.haltDetail.code) ∧
        s.register 0x0C = BitVec.ofNat 32 ((if s.cpl.cause.completion then 1 else 0) + (if s.cpl.cause.halt then 2 else 0) +
          (if s.cpl.cause.badIndex then 4 else 0)) ∧
        s.register 0x10 = BitVec.ofNat 32 ((if s.cpl.mask.completion then 1 else 0) + (if s.cpl.mask.halt then 2 else 0) +
          (if s.cpl.mask.badIndex then 4 else 0)) ∧
        s.register 0x14 = s.link.setupLo ∧ s.register 0x18 = s.link.setupHi ∧ s.register 0x1C = s.ring.ctlTail ∧
        s.register 0x20 = s.ring.capTail ∧ s.register 0x24 = s.ring.bufTail ∧ s.register 0x28 = s.cpl.head ∧
        (∀ offset, offset ∉ [0x00, 0x04, 0x08, 0x0C, 0x10, 0x14, 0x18, 0x1C, 0x20, 0x24, 0x28] → s.register offset = 0) ∧
        ∀ offset, (s.registerByte offset).toNat =
          (s.register (4 * (offset / 4))).toNat / 256 ^ (offset % 4) % 256) ∧
    State.reset.listsBounded ∧ State.reset.tablesForm ∧ State.reset.sensorForm ∧ State.reset.lineFollows ∧ State.reset.filterForm ∧
    State.reset.powerForm ∧ State.reset.replayForm ∧ State.reset.flushApart ∧ State.reset.flushForm ∧
    State.reset.framesApart ∧ State.reset.stopForm ∧ State.reset.refsCounted ∧ State.reset.restForm ∧
    State.reset.creditForm

/-! ## The register window -/

/-- A write of Enable 1 is stored, and in DISABLED the part enters STARTING (R173, R174). That outside DISABLED nothing but
Enable changes, in DRAINING and HALTED too, is log entry 22 (DEDUCED); how the WRITE of a flush that a halt left on the
port goes on is log entry 29 (DEDUCED). -/
def Obligations.EnableSetStarts : Prop :=
  ∀ s : State, ∃ t, exec .enableSet s = .next t ∧ t.link.enable = true ∧
    (s.link.part = .disabled → Started { s with link := { s.link with enable := true } } t) ∧
    (s.link.part ≠ .disabled → unchangedBut [.enable] s t)

/-- A write of Enable 0 is stored; it takes HALTED to DISABLED with the tail registers 0, and RUNNING to DRAINING
(R173, R174, R176, R179). -/
def Obligations.EnableClearLeavesHaltedOrDrains : Prop :=
  ∀ s : State, ∃ t, exec .enableClear s = .next t ∧ t.link.enable = false ∧
    (s.link.part = .disabled ∨ s.link.part = .starting ∨ s.link.part = .draining → unchangedBut [.enable] s t) ∧
    (s.link.part = .halted →
      t.link.part = .disabled ∧ t.ring.ctlTail = 0 ∧ t.ring.capTail = 0 ∧ t.ring.bufTail = 0 ∧
        unchangedBut [.enable, .partState, .tails] s t) ∧
    (s.link.part = .running → t.link.part = .draining)

/-- Entry to DRAINING (R176, Table 71): the Capture Ring tail becomes the flush mark, entries behind the head with no mark become
FLUSHED, ABORT is applied to the active request unless it is REJECTED or marked, every WAITING staged entry completes
DISCARDED in list order, a FLUSH_STAGED that waits and finds the list empty and no flush in progress completes DONE, the
engine gives up a credit whose read has not begun, and the Capture Scheduler goes on fetching while the mark is recorded, or
gives up its own (R3, R12, R22, R23, R49, R120, R129, R142, R144, R153, R166). That the contexts take ABORT before the staged
list is empty, so that a context in GAP closes from GAP, is log entry 32 (DESIGN CHOICE); that all timers of a frame that
closes stand stopped is log entry 18 (DESIGN CHOICE). -/
def Obligations.EnteringDraining : Prop :=
  ∀ (u : Setup) (s : State), s.ring.setup = some u → s.link.part = .running → (s.sensor.port ≠ none ∨ s.noneWaits) →
    s.framesApart → s.stopForm → s.flushForm →
    ∀ finished, finished = (if s.sensor.staged.filter Staged.inProgress = [] ∧ s.sensor.flush = none then s.flushRecord
      else none) →
    ∃ t, exec .enableClear s = .next t ∧ t.link.part = .draining ∧
      Posts u [] (((s.sensor.staged.filter fun e => !e.inProgress).map fun e =>
        .control { kind := 0x05, tag := e.tag, status := .discarded }) ++ finished.toList.map flushDone) s t ∧
      t.sensor.staged = s.sensor.staged.filter Staged.inProgress ∧
      t.sched.flushMark = (if s.ring.capTail.toNat = s.ring.capHead then none else some s.ring.capTail.toNat) ∧
      t.sched.queue = s.sched.queue.head?.toList ++ s.sched.queue.tail.map (fun e =>
        if e.mark = .none then { e with mark := .flushed } else e) ∧
      (s.liveRequest.isSome = true → StopApplied .abort s t) ∧
      (s.liveRequest.isSome = false → t.seq = s.seq ∧ t.recv = s.recv ∧ t.sched.stopMode = s.sched.stopMode ∧
        t.sched.endCause = s.sched.endCause) ∧
      t.engine = (if finished.isSome ∨ (s.engine.mode = .waitCredit ∧ s.ring.ctlRead = none) then
        { s.engine with
          mode := EngineMode.idle
          credit := CreditState.none
          job := if finished.isSome then none else s.engine.job }
        else s.engine) ∧
      CaptureTested u s t ∧
      timedBut ([.enable, .partState, .staged, .queue, .stop, .flushMark, .capCredit, .capRing, .contexts,
        .lines, .receiver, .engine] ++ postParts) s t

/-- INT_CAUSE is cleared by ones, INT_MASK takes the enables; a message is sent when messages are enabled and the signalling
condition becomes true, and the line follows the condition while they are not (R170, R171). -/
def Obligations.InterruptRegisters : Prop :=
  ∀ (value : Word) (enabled : Bool) (s : State),
    (∃ t, exec (.intCauseWrite value) s = .next t ∧
      t.cpl.cause =
        { completion := s.cpl.cause.completion && !value.getLsbD 0
          halt := s.cpl.cause.halt && !value.getLsbD 1
          badIndex := s.cpl.cause.badIndex && !value.getLsbD 2 } ∧
      t.link.issued = s.link.issued ∧ t.lineFollows ∧ unchangedBut [.cause, .line] s t) ∧
    (∃ t, exec (.intMaskWrite value) s = .next t ∧
      t.cpl.mask = { completion := value.getLsbD 0, halt := value.getLsbD 1, badIndex := value.getLsbD 2 } ∧
      t.link.issued = s.link.issued ++ messageSent s t ∧
      t.lineFollows ∧ unchangedBut [.mask, .line, .issued] s t) ∧
    ∃ t, exec (.msiEnableWrite enabled) s = .next t ∧ t.link.msi = enabled ∧ t.lineFollows ∧ unchangedBut [.msi, .line] s t

/-- The expiry of the coalescing timer sets COMPLETION and starts a new count; before it is due nothing happens (R169).
That a command whose event cannot come now does nothing is the model's
choice (log entry 1). -/
def Obligations.CoalescingExpirySignals : Prop :=
  ∀ s : State, ∃ t, exec .coalescingTimerExpiry s = .next t ∧
    (isDue s.now s.cpl.timer = true →
      t.cpl.unsignalled = 0 ∧ t.cpl.timer = none ∧ t.cpl.cause = { s.cpl.cause with completion := true } ∧
        t.link.issued = s.link.issued ++ messageSent s t ∧
        t.lineFollows ∧ unchangedBut [.coalescing, .cause, .line, .issued] s t) ∧
    (isDue s.now s.cpl.timer = false → t = s)

/-- SETUP_ADDR is stored in DISABLED and kept in every other part state (R146). -/
def Obligations.SetupAddrWrites : Prop :=
  ∀ (half : AddrHalf) (value : Word) (s : State), ∃ t, exec (.setupAddrWrite half value) s = .next t ∧
    (s.link.part = .disabled →
      (half = .lo → t.link.setupLo = value ∧ t.link.setupHi = s.link.setupHi) ∧
        (half = .hi → t.link.setupHi = value ∧ t.link.setupLo = s.link.setupLo) ∧ unchangedBut [.setupAddr] s t) ∧
    (s.link.part ≠ .disabled → t = s)

/-- Table 61: any tail value is stored in DISABLED and HALTED, one below the largest size of the ring in STARTING, one below
the ring's size in RUNNING and DRAINING; any other is ignored and sets BAD_INDEX, with the line or the message that follows
(R150, R171). -/
def Obligations.TailWritesFollowTable61 : Prop :=
  ∀ (r : RingId) (value : Word) (s : State), ∃ t, exec (.tailWrite r value) s = .next t ∧
    (TailTaken r value.toNat s →
      t.ringTail r = value ∧ (∀ q, q ≠ r → t.ringTail q = s.ringTail q) ∧
        unchangedBut [.tails, .flushMark, .capCredit, .engine, .ctlRing, .capRing, .bufRing] s t ∧
        (s.link.part ≠ .running → s.link.part ≠ .draining → unchangedBut [.tails] s t)) ∧
    (¬ TailTaken r value.toNat s →
      t.cpl.cause = { s.cpl.cause with badIndex := true } ∧ t.lineFollows ∧
        t.link.issued = s.link.issued ++ messageSent s t ∧ unchangedBut [.cause, .line, .issued] s t)

/-- In RUNNING a tail write that leaves its ring not empty makes the block that reads the ring ask for its credit or begin its
read, as Table 62 says: the read asks for the record at the ring's head (R3, R93, R133, R144, R153). -/
def Obligations.TailWriteStartsTheFetch : Prop :=
  ∀ (u : Setup) (value : Word) (s : State), s.link.part = .running → s.ring.setup = some u →
    (value.toNat < u.control.size → value.toNat ≠ s.ring.ctlHead →
      ∃ t, exec (.tailWrite .control value) s = .next t ∧ unchangedBut [.tails, .engine, .ctlRing] s t ∧
        (s.engine.mode = .idle → t.engine = { s.engine with mode := .waitCredit, credit := .asked }) ∧
        (s.engine.mode = .waitCredit → s.engine.credit = .held → s.ring.ctlRead = none →
          t.engine = s.engine ∧ t.ring.ctlRead = some (readAt u s.ring.ctlHead s .control))) ∧
    (value.toNat < u.capture.size → value.toNat ≠ s.ring.capHead → s.sched.queue.length < 4 →
      s.sched.flushMark = none →
      ∃ t, exec (.tailWrite .capture value) s = .next t ∧ unchangedBut [.tails, .capCredit, .capRing] s t ∧
        (s.sched.credit = .none → t.sched.credit = .asked) ∧
        (s.sched.credit = .held → s.ring.capRead = none →
          t.sched.credit = .held ∧ t.ring.capRead = some (readAt u s.ring.capHead s .capture))) ∧
    (value.toNat < u.buffer.size → value.toNat ≠ s.ring.bufHead →
      s.bufs.cache.length < min 32 (u.buffer.size - 1) → s.ring.bufRead = none →
      ∃ t, exec (.tailWrite .buffer value) s = .next t ∧ unchangedBut [.tails, .bufRing] s t ∧
        t.ring.bufRead = some (readAt u s.ring.bufHead s .buffer) ∧ t.ring.bufHead = s.ring.bufHead)

/-- A Capture Ring tail that leaves fewer records than the flush mark moves the mark back to it, or to the position behind the
record being read, and a mark equal to the head is cleared (R24). -/
def Obligations.TailWriteMovesTheFlushMark : Prop :=
  ∀ (u : Setup) (value : Word) (m : Nat) (s : State),
    s.ring.setup = some u → (s.link.part = .running ∨ s.link.part = .draining) → value.toNat < u.capture.size →
    s.ring.capHead < u.capture.size → m < u.capture.size → m ≠ s.ring.capHead → s.sched.flushMark = some m →
    ∃ t, exec (.tailWrite .capture value) s = .next t ∧
      t.sched.flushMark =
        if forward u.capture.size s.ring.capHead value.toNat < forward u.capture.size s.ring.capHead m then
          if value.toNat = s.ring.capHead then
            if s.ring.capRead.isSome = true ∧ u.capture.size ≠ 1 then some ((s.ring.capHead + 1) % u.capture.size) else none
          else some value.toNat
        else some m

/-- CPL_HEAD: a value in the run from CPL_HEAD forward to the tail is taken and frees that many slots; any other value is
ignored and sets BAD_INDEX, with the line or the message that follows (R171); with no Setup Block values held 0 alone is in
range (R168), in every part state in which none are held (log entry 24, DEDUCED from R168). -/
def Obligations.CplHeadWrites : Prop :=
  (∀ (u : Setup) (value : Word) (s : State), s.ring.setup = some u → s.cpl.head.toNat < u.completion.size →
    s.cpl.tail < u.completion.size →
    ∃ t, exec (.cplHeadWrite value) s = .next t ∧
      (value.toNat < u.completion.size →
        forward u.completion.size s.cpl.head.toNat value.toNat ≤ forward u.completion.size s.cpl.head.toNat s.cpl.tail →
        t.cpl.head = value ∧ t.unfreed + forward u.completion.size s.cpl.head.toNat value.toNat = s.unfreed ∧
          unchangedBut [.cplHead] s t) ∧
      (u.completion.size ≤ value.toNat ∨
        forward u.completion.size s.cpl.head.toNat s.cpl.tail < forward u.completion.size s.cpl.head.toNat value.toNat →
        t.cpl.cause = { s.cpl.cause with badIndex := true } ∧ t.lineFollows ∧
          t.link.issued = s.link.issued ++ messageSent s t ∧ unchangedBut [.cause, .line, .issued] s t)) ∧
    ∀ (value : Word) (s : State), s.ring.setup = none →
      ∃ t, exec (.cplHeadWrite value) s = .next t ∧
        (value = 0 → t.cpl.head = 0 ∧ unchangedBut [.cplHead] s t) ∧
        (value ≠ 0 → t.cpl.cause = { s.cpl.cause with badIndex := true } ∧ t.lineFollows ∧
          t.link.issued = s.link.issued ++ messageSent s t ∧ unchangedBut [.cause, .line, .issued] s t)

/-! ## Host reads and part states -/

/-- A valid Setup Block is taken up: held values, tail registers not below their ring's size set to 0 with BAD_INDEX, the
Progress Block, and RUNNING with the fetching blocks testing their conditions, or DRAINING where Enable reads 0, with the
Capture Ring tail as the flush mark, the Capture Scheduler fetching up to it, and the engine IDLE as it was (R3, R24, R147,
R149, R175, R176). -/
def Obligations.ValidSetupBlockIsTakenUp : Prop :=
  ∀ (data : List Byte) (s : State), s.ring.setupRead.isSome = true → s.restForm →
    firstFailed (setupChecks (parseSetup data)) = none →
    ∀ u, u = parseSetup data →
    ∃ t, exec (.setupReadDone data) s = .next t ∧ t.ring.setup = some u ∧ t.ring.setupRead = none ∧
      t.ring.ctlTail = (if s.ring.ctlTail.toNat < u.control.size then s.ring.ctlTail else 0) ∧
      t.ring.capTail = (if s.ring.capTail.toNat < u.capture.size then s.ring.capTail else 0) ∧
      t.ring.bufTail = (if s.ring.bufTail.toNat < u.buffer.size then s.ring.bufTail else 0) ∧
      t.cpl.cause.badIndex = (s.cpl.cause.badIndex || decide (u.control.size ≤ s.ring.ctlTail.toNat) ||
        decide (u.capture.size ≤ s.ring.capTail.toNat) || decide (u.buffer.size ≤ s.ring.bufTail.toNat)) ∧
      t.link.issued = s.link.issued ++ messageSent s t ++
        [progressWrite u s.ring.ctlHead s.ring.capHead s.ring.bufHead] ∧
      (s.link.enable = true → t.link.part = .running ∧
        t.engine = (if t.ring.ctlTail.toNat ≠ s.ring.ctlHead then { s.engine with mode := .waitCredit, credit := .asked }
          else s.engine) ∧
        t.sched.credit = (if t.ring.capTail.toNat ≠ s.ring.capHead then .asked else .none) ∧
        t.ring.bufRead = (if t.ring.bufTail.toNat ≠ s.ring.bufHead then some (readAt u s.ring.bufHead s .buffer)
          else none) ∧
        unchangedBut [.partState, .setup, .setupRead, .tails, .issued, .line, .cause, .engine, .capCredit, .bufRing] s t) ∧
      (s.link.enable = false → t.link.part = .draining ∧
        t.sched.flushMark = (if t.ring.capTail.toNat = s.ring.capHead then none else some t.ring.capTail.toNat) ∧
        t.sched.credit = (if t.ring.capTail.toNat ≠ s.ring.capHead then .asked else .none) ∧ t.engine = s.engine ∧
        (s.sensor.port ≠ none ∨ s.noneWaits →
          timedBut [.partState, .setup, .setupRead, .tails, .issued, .line, .cause, .flushMark, .capCredit]
            s t))

/-- A host read that ends in a host read error halts the part with the cause and detail of its ring, and so does a Setup Block
that fails a check, with the detail of the first check that fails (R146, R147, R154, R178).
That a command whose event cannot come now does nothing is the model's
choice (log entry 1). -/
def Obligations.HostReadFaultsHalt : Prop :=
  (∀ (reason : ReadError) (s : State), s.ring.setupRead.isSome = true →
    ∃ t, exec (.setupReadError reason) s = .next t ∧ Halted .setupRead .none s t) ∧
  (∀ (r : RingId) (reason : ReadError) (s : State), (s.ringRead r).isSome = true →
    ∃ t, exec (.fetchReadError r reason) s = .next t ∧
      Halted .fetchRead (if r = .control then .controlRing else if r = .capture then .captureRing else .bufferRing) s t) ∧
  (∀ (read : HostRead) (s : State),
    (isDue s.now ((s.readInProgress read).map ReadInProgress.timer) = false → exec (.hostReadTimeout read) s = .next s) ∧
      (isDue s.now ((s.readInProgress read).map ReadInProgress.timer) = true → ∃ t, exec (.hostReadTimeout read) s = .next t ∧
        (read = .setup → Halted .setupRead .none s t) ∧ (read = .ring .control → Halted .fetchRead .controlRing s t) ∧
        (read = .ring .capture → Halted .fetchRead .captureRing s t) ∧
        (read = .ring .buffer → Halted .fetchRead .bufferRing s t))) ∧
  ∀ (data : List Byte) (d : Detail) (s : State), s.ring.setupRead.isSome = true →
    firstFailed (setupChecks (parseSetup data)) = some d →
    ∃ t, exec (.setupReadDone data) s = .next t ∧ Halted .setupInvalid d s t

/-- What arrives for a host read that is not in progress is discarded (R155, R180).
That a command whose event cannot come now does nothing is the model's
choice (log entry 1). -/
def Obligations.StaleReadsAreDiscarded : Prop :=
  ∀ s : State,
    (s.ring.setupRead = none →
      ∀ data reason, exec (.setupReadDone data) s = .next s ∧ exec (.setupReadError reason) s = .next s) ∧
    (∀ r, s.ringRead r = none → ∀ reason, exec (.fetchReadError r reason) s = .next s) ∧
    (s.ring.capRead = none → ∀ data, exec (.captureRecordRead data) s = .next s) ∧
    (s.ring.bufRead = none → ∀ data, exec (.bufferEntryRead data) s = .next s) ∧
    (s.ring.ctlRead = none → ∀ i, (encodeControl i).isSome = true → exec i s = .next s)

/-- A drain finishes when every condition of R177 holds: the part enters DISABLED with the tail registers 0 and the Sensor Link as
Table 49 gives it, the port free with no requester and no replay position, and goes on to STARTING where Enable reads 1.
Before that nothing happens. That the drain leaves the trigger latch clear and the pending missed count 0 is log entry 23
(DEDUCED from Table 20); that it cuts off a replay's WRITE, or a transaction that a halt left behind, which still holds the
port, is log entry 30 (DESIGN CHOICE), that the replay position and counts are held as 0 is log entry 17 (DESIGN CHOICE),
and the generation that such a WRITE of a flush brings is log entry 29 (DEDUCED).
That a command whose event cannot come now does nothing is the model's
choice (log entry 1). -/
def Obligations.DrainFinishes : Prop :=
  ∀ s : State, ∃ t, exec .drainFinish s = .next t ∧
    (¬ Finished s → t = s) ∧
    (Finished s →
      t.ring.ctlTail = 0 ∧ t.ring.capTail = 0 ∧ t.ring.bufTail = 0 ∧ t.link.enable = s.link.enable ∧
        (s.link.enable = false → t.link.part = .disabled ∧ t.seq.latch = false ∧ t.seq.missed = 0 ∧
          t.sensor = s.drainedSensor ∧
          unchangedBut [.partState, .tails, .latch, .missed, .port, .waits, .replay, .flush, .generation] s t) ∧
        (s.link.enable = true → Started { s with
          ring := { s.ring with ctlTail := 0, capTail := 0, bufTail := 0 }
          sensor := s.drainedSensor } t))

/-! ## Capture requests, buffers and credit -/

/-- A capture record read joins the Capture Queue as a FLUSHED, REJECTED or VALID entry by Table 8, pins its windows, clears a
flush mark that the head has reached, becomes the active request in an empty queue, and the head and the Progress Block
move on (R4, R5, R8, R11, R12, R24, R37, R153, R156). That the first tick of an INTERVAL request comes within the command is
log entry 31 (DEDUCED). -/
def Obligations.CaptureRecordJoinsTheQueue : Prop :=
  ∀ (u : Setup) (data : List Byte) (s : State), s.ring.capRead.isSome = true → s.ring.setup = some u →
    ∀ head e, head = (s.ring.capHead + 1) % u.capture.size → e = placedEntry u data s →
    ∃ t, exec (.captureRecordRead data) s = .next t ∧ t.sched.queue = s.sched.queue ++ [e] ∧ t.ring.capHead = head ∧
      t.ring.capRead = none ∧
      t.link.issued = s.link.issued ++ [progressWrite u s.ring.ctlHead head s.ring.bufHead] ∧
      t.sched.flushMark = (if s.sched.flushMark = some head then none else s.sched.flushMark) ∧
      (t.cutter.windows.length = s.cutter.windows.length ∧
        ∀ n, (windowAt t.cutter.windows n).window = (windowAt s.cutter.windows n).window ∧
          (windowAt t.cutter.windows n).refs = (windowAt s.cutter.windows n).refs +
            (if e.request.any (fun r => decide (n ∈ r.windows)) then 1 else 0)) ∧
      t.sched.credit = (if (s.link.part = .running ∨ (s.link.part = .draining ∧ t.sched.flushMark.isSome = true)) ∧
          s.sched.queue.length + 1 < 4 ∧ head ≠ s.ring.capTail.toNat then .asked else .none) ∧
      (s.sched.queue = [] → BecameActive e s t) ∧
      (s.sched.queue ≠ [] → unchangedBut [.queue, .capCredit, .capRing, .issued, .flushMark, .windows] s t) ∧
      unchangedBut [.queue, .capCredit, .capRing, .issued, .flushMark, .windows, .stop, .interval, .latch, .missed] s t

/-- A buffer entry read joins the back of the Buffer Cache with its validity, and the head and the Progress Block move on; a
context in RESERVING that waits for a buffer serves its assignments from the cache then: it waits on, closes SKIPPED under
SKIP with the cache empty, asks for a return, or evaluates GAP with every buffer assigned. The Buffer Unit tests its
conditions again (R12, R31 to R33, R91 to R97, R144, R153). That all timers of a frame that closes stand stopped is log
entry 18 (DESIGN CHOICE). States in which a FLUSH_STAGED is in hand, or a requester waits for a free port, are left out
(`portQuiet`). -/
def Obligations.BufferEntryJoinsTheCache : Prop :=
  ∀ (u : Setup) (data : List Byte) (s : State), s.ring.bufRead.isSome = true → s.ring.setup = some u → s.portQuiet →
    ∀ head e, head = (s.ring.bufHead + 1) % u.buffer.size → e = placedBuffer s.ring.bufHead data →
    (awaitsBuffer s.seq.ctx0 = false → awaitsBuffer s.seq.ctx1 = false →
      ∃ t, exec (.bufferEntryRead data) s = .next t ∧ t.bufs.cache = s.bufs.cache ++ [e] ∧ t.ring.bufHead = head ∧
        t.link.issued = s.link.issued ++ [progressWrite u s.ring.ctlHead s.ring.capHead head] ∧
        t.ring.bufRead = (if s.link.part = .running ∧ head ≠ s.ring.bufTail.toNat ∧
            s.bufs.cache.length + 1 < min 32 (u.buffer.size - 1) then some (readAt u head s .buffer) else none) ∧
        timedBut [.cache, .bufRing, .issued] s t) ∧
    ∀ c f r, s.ctx c = some f → awaitsBuffer (s.ctx c) = true → awaitsBuffer (s.ctx (other c)) = false →
      s.request = some r →
      ∀ served, served = serve f.assignments (s.bufs.cache ++ [e]) →
      ∃ t, exec (.bufferEntryRead data) s = .next t ∧ t.bufs.cache = served.2.1 ∧ t.ring.bufHead = head ∧
        t.link.issued = s.link.issued ++ [progressWrite u s.ring.ctlHead s.ring.capHead head] ∧
        BuffersTried r c f served s t ∧ t.ctx (other c) = s.ctx (other c) ∧
        timedBut ([.cache, .bufRing, .issued] ++ triedParts c served s) s t

/-- Assignments are served in list order from the front of the cache: an entry is assigned when it is valid and long enough,
never skipped over, an assignment that gets none holds back every one behind it, and serving stops when every assignment
has a buffer, the cache is empty, or the front entry is to be returned (R95, Table 38). -/
def Obligations.BuffersAreServedInOrder : Prop :=
  ∀ (as : List Assignment) (cache : List CacheEntry) (r : List Assignment × List CacheEntry × Served),
    r = serve as cache →
    ∀ taken, taken = cache.take (cache.length - r.2.1.length) →
    cache = taken ++ r.2.1 ∧ r.1.map Assignment.window = as.map Assignment.window ∧
      r.1.map Assignment.byteSize = as.map Assignment.byteSize ∧
      taken.map CacheEntry.asBuffer =
        (as.zip r.1).filterMap (fun p => if p.1.buffer.isNone then p.2.buffer else none) ∧
      (∀ e ∈ taken, e.valid = true) ∧
      (∀ (i : Nat) (a : Assignment), r.1[i]? = some a → a.buffer = none → ∀ j, i < j → r.1[j]? = as[j]?) ∧
      (∀ p ∈ as.zip r.1, if p.1.buffer.isSome then p.2 = p.1
        else p.2 = { p.1 with buffer := p.2.buffer } ∧ p.2.buffer.all (fun b => decide (p.1.byteSize ≤ b.length)) = true) ∧
      (r.2.2 = .allServed ↔ ∀ a ∈ r.1, a.buffer.isSome = true) ∧ (r.2.2 = .cacheEmpty → r.2.1 = []) ∧
      (r.2.2 = .returnFront → r.2.1.head?.any (fun e => !e.valid ||
        (r.1.find? fun a => a.buffer.isNone).any fun a => decide (e.length < a.byteSize)) = true)

/-- A grant: where free credit does not cover the first waiting request in the order of Table 66 nothing is granted; of several
waiting requests each is granted that free credit covers together with those before it, and the first not covered stops
the pass; and a request that waits alone and that free credit covers is granted and its block goes on: a read begins, an
entry is returned, or a frame serves its assignments (R3, R12, R30 to R33, R95 to R97, R106, R133, R144, R153, R165). That one
pass considers each requester once, so that a request which a grant of the pass raises waits for the next CREDIT_GRANT, is
log entry 10 (DEDUCED), and that all timers of a frame that closes stand stopped is log entry 18 (DESIGN CHOICE). The clause
about several requests is for states in which the frames stand apart (`framesApart`, which StepKeepsFramesApart says every
step keeps): a context that waits for a return is then in RESERVING and holds its credit. States in which a FLUSH_STAGED is
in hand, or a requester waits for a free port, are left out (`portQuiet`). -/
def Obligations.CreditIsGrantedInOrder : Prop :=
  ∀ s : State, s.portQuiet →
    (∀ r n, s.firstRequest = some (r, n) → s.freeCredit < n →
      ∃ t, exec .creditGrant s = .next t ∧ timedBut [] s t) ∧
    (s.framesApart → (s.sched.credit = .asked → s.captureMayFetch = true) →
      (s.engine.credit = .asked → s.engine.mode = .waitCredit) →
      (∀ c n, s.requestingContext = some (c, n) → (s.ctx c).any Frame.creditHeld = false) →
      (s.link.part = .draining → s.inPhase .c0 .reserving = false ∧ s.inPhase .c1 .reserving = false) →
      ∃ t, exec .creditGrant s = .next t ∧ ∀ r n, s.waitingRequest r = some n →
        (s.askedUpTo r ≤ s.freeCredit → Granted s t r) ∧ (s.freeCredit < s.askedUpTo r → NotGranted s t r)) ∧
    (∀ r n, s.firstRequest = some (r, n) → n ≤ s.freeCredit →
      (∀ q, q ≠ r → s.waitingRequest q = none) →
      ∃ t, exec .creditGrant s = .next t ∧
        (r = .capture → s.captureMayFetch = true → s.sched.queue.length < 4 → ∀ u, s.ring.setup = some u →
          t.sched.credit = .held ∧ t.reserved = s.reserved + 1 ∧
            t.ring.capRead = (if s.ringWaiting .capture = true ∧ s.ring.capRead = none then
              some (readAt u s.ring.capHead s .capture) else s.ring.capRead) ∧
            timedBut [.capCredit, .capRing] s t) ∧
        (r = .engine → s.engine.mode = .waitCredit → ∀ u, s.ring.setup = some u →
          t.engine = { s.engine with credit := .held } ∧ t.reserved = s.reserved + 1 ∧
            t.ring.ctlRead = (if s.link.part = .running ∧ s.ringWaiting .control = true ∧ s.ring.ctlRead = none then
              some (readAt u s.ring.ctlHead s .control) else s.ring.ctlRead) ∧
            timedBut [.engine, .ctlRing] s t) ∧
        (r = .buffer → ∀ u e rest, s.ring.setup = some u → s.bufs.cache = e :: rest →
          t.bufs.cache = rest ∧
            Posts u [] [.bufferReturn e.tag (if e.valid then .unused else .badBuffer)] s t ∧
            timedBut ([.cache] ++ postParts) s t) ∧
        (r = .sequencer → ∀ c f, s.ctx c = some f → frameRequest (s.ctx (other c)) = none → f.creditHeld = false →
          t.reserved = s.reserved + f.slots ∧ t.ctx (other c) = s.ctx (other c) ∧
          (f.phase = .closing → t.ctx c = some { f with creditHeld := true } ∧ timedBut [.contexts] s t) ∧
          (∀ q, f.phase = .reserving → s.request = some q →
            ∀ served, served = serve (f.assignments.map fun a => { a with byteSize := s.windowBytes a.window }) s.bufs.cache →
            BuffersTried q c { f with creditHeld := true } served s t ∧ t.bufs.cache = served.2.1 ∧
              timedBut ([.cache, .bufRing] ++ triedParts c served s) s t)) ∧
        (r = .sequencer → ∀ u c f e rest q, s.ring.setup = some u → s.ctx c = some f → f.phase = .reserving →
          f.creditHeld = true → f.returnAsked = true → frameRequest (s.ctx (other c)) = none → s.bufs.cache = e :: rest →
          s.request = some q →
          ∀ served, served = serve f.assignments rest →
          Posts u [] [.bufferReturn e.tag (if e.valid then .short else .badBuffer)] s t ∧
            BuffersTried q c { f with returnAsked := false } served s t ∧
            t.ctx (other c) = s.ctx (other c) ∧ t.bufs.cache = served.2.1 ∧
            timedBut ([.cache, .bufRing] ++ postParts ++ triedParts c served s) s t))

/-! ## Control records -/

/-- MARK completes DONE; a record of no kind, a sensor address above 511 and a power action code that names none complete with
the status and detail of their check, every byte of the CONTROL slot and of the Progress Block as Tables 79, 80 and 82 have it;
nothing else changes (R135, R136, R138, R140, R156, R160, R183). -/
def Obligations.MarksAndRefusedRecords : Prop :=
  ∀ (u : Setup) (tag : Word) (s : State), s.readingControl u →
    ∀ (i : Instr) (r : ControlResult),
      (i = .mark tag ∧ r = { kind := 0x01, tag := tag, status := .done }) ∨
        (∃ kind, i = .badRecord kind tag ∧ r = { kind := kind, tag := tag, status := .badRecord }) ∨
        (∃ action, i = .sensorPowerBadField tag action ∧
          r = { kind := 0x07, tag := tag, status := .badField, detail := .powerAction }) ∨
        (∃ (a v : Half), 512 ≤ a.toNat ∧ (i = .sensorWriteNow tag a v ∨ i = .sensorWriteStaged tag a v) ∧
          r = { kind := 0x05, tag := tag, status := .badField, detail := .sensorAddress }) ∨
        (∃ a : Half, 512 ≤ a.toNat ∧ i = .sensorRead tag a ∧
          r = { kind := 0x06, tag := tag, status := .badField, detail := .sensorAddress }) →
      ∃ t, exec i s = .next t ∧ RecordDone u [.control r] s t ∧ unchangedBut recordParts s t

/-- WINDOW_SET: the first failing check of Table 22 gives its status and detail and changes no window; with every check passed
the entry is DEFINED with the eight fields, its count kept (R59, R60). -/
def Obligations.WindowSetFollowsTable22 : Prop :=
  ∀ (u : Setup) (tag : Word) (number : Half) (w : WindowDef) (s : State), s.readingControl u →
    s.cutter.windows.length = 16 →
    (∀ refusal, firstFailed (windowChecks u s.cutter.windows number.toNat w) = some refusal →
      ∃ t, exec (.windowSet tag number w) s = .next t ∧
        RecordDone u [.control { kind := 0x02, tag := tag, status := refusal.1, detail := refusal.2 }] s t ∧
        unchangedBut recordParts s t) ∧
    (firstFailed (windowChecks u s.cutter.windows number.toNat w) = none →
      ∃ t, exec (.windowSet tag number w) s = .next t ∧
        RecordDone u [.control { kind := 0x02, tag := tag, status := .done }] s t ∧
        windowAt t.cutter.windows number.toNat = { window := some w, refs := 0 } ∧
        t.cutter.windows.length = 16 ∧
        (∀ n, n ≠ number.toNat → windowAt t.cutter.windows n = windowAt s.cutter.windows n) ∧
        unchangedBut (.windows :: recordParts) s t)

/-- WINDOW_CLEAR by the cases of Table 23 (R61). -/
def Obligations.WindowClearFollowsTable23 : Prop :=
  ∀ (u : Setup) (tag : Word) (number : Half) (s : State), s.readingControl u → s.cutter.windows.length = 16 →
    (15 < number.toNat →
      ∃ t, exec (.windowClear tag number) s = .next t ∧
        RecordDone u [.control { kind := 0x03, tag := tag, status := .badField, detail := .windowNumber }] s t ∧
        unchangedBut recordParts s t) ∧
    (number.toNat ≤ 15 → (windowAt s.cutter.windows number.toNat).refs ≠ 0 →
      ∃ t, exec (.windowClear tag number) s = .next t ∧
        RecordDone u [.control { kind := 0x03, tag := tag, status := .inUse }] s t ∧ unchangedBut recordParts s t) ∧
    (number.toNat ≤ 15 → (windowAt s.cutter.windows number.toNat).refs = 0 →
      ∃ t, exec (.windowClear tag number) s = .next t ∧
        RecordDone u [.control { kind := 0x03, tag := tag, status := .done }] s t ∧
        windowAt t.cutter.windows number.toNat = { window := none, refs := 0 } ∧ t.cutter.windows.length = 16 ∧
        (∀ n, n ≠ number.toNat → windowAt t.cutter.windows n = windowAt s.cutter.windows n) ∧
        unchangedBut (.windows :: recordParts) s t)

/-- ORDER_SET by the cases of Table 26 (R68). -/
def Obligations.OrderSetFollowsTable26 : Prop :=
  ∀ (u : Setup) (tag : Word) (values : List Byte) (s : State), s.readingControl u → values.length = 16 →
    (¬ ((∀ v ∈ values, v.toNat ≤ 15) ∧ values.Nodup) →
      ∃ t, exec (.orderSet tag values) s = .next t ∧
        RecordDone u [.control { kind := 0x04, tag := tag, status := .badField, detail := .orderPermutation }] s t ∧
        unchangedBut recordParts s t) ∧
    ((∀ v ∈ values, v.toNat ≤ 15) → values.Nodup → (s.seq.ctx0 ≠ none ∨ s.seq.ctx1 ≠ none) →
      ∃ t, exec (.orderSet tag values) s = .next t ∧
        RecordDone u [.control { kind := 0x04, tag := tag, status := .busy }] s t ∧ unchangedBut recordParts s t) ∧
    ((∀ v ∈ values, v.toNat ≤ 15) → values.Nodup → s.seq.ctx0 = none → s.seq.ctx1 = none →
      ∃ t, exec (.orderSet tag values) s = .next t ∧
        RecordDone u [.control { kind := 0x04, tag := tag, status := .done }] s t ∧
        t.cutter.order = values.map BitVec.toNat ∧ unchangedBut (.order :: recordParts) s t)

/-- An immediate WRITE or a READ completes SENSOR_OFF in OFF and SETTLING, waits in REPLAYING, and in READY asks for the port:
on a free port that no one before it asks for, its transaction begins at once with the 2 ms acknowledge timer
(R109, R110, R113, Table 45). -/
def Obligations.ImmediateSensorAccess : Prop :=
  ∀ (u : Setup) (tag : Word) (a v : Half) (s : State), s.readingControl u → a.toNat < 512 →
    ∀ x ∈ [(Instr.sensorWriteNow tag a v, (0x05 : Byte), Work.write a v, PortOp.write a v),
      (Instr.sensorRead tag a, (0x06 : Byte), Work.read a, PortOp.read a)],
    ∃ t, exec x.1 s = .next t ∧
      (s.sensor.power = .off ∨ s.sensor.power = .settling →
        RecordDone u [.control { kind := x.2.1, tag := tag, status := .sensorOff }] s t ∧ unchangedBut recordParts s t) ∧
      (s.sensor.power = .replaying →
        RecordHeld u { tag := tag, work := x.2.2.1 } s t ∧ unchangedBut [.ctlRing, .engine, .issued] s t) ∧
      (s.sensor.power = .ready → s.sensor.port ≠ none →
        RecordHeld u { tag := tag, work := x.2.2.1 } s t ∧ t.sensor = { s.sensor with engineWaits := true } ∧
          unchangedBut [.ctlRing, .engine, .issued, .waits] s t) ∧
      (s.sensor.power = .ready → s.sensor.port = none → s.sensor.replayWaits = false → s.sensor.flushWaits = false →
        RecordHeld u { tag := tag, work := x.2.2.1 } s t ∧
          t.sensor = { s.sensor with
            engineWaits := false
            port := some { owner := .engine, op := x.2.2.2, timer := { started := s.now, duration := 2000 } } } ∧
          unchangedBut [.ctlRing, .engine, .issued, .waits, .port] s t)

/-- A STAGED write joins the back of the Staged Settings List and the engine's credit moves to it with no completion, or it
completes STAGE_FULL; in DRAINING it is discarded at once with every WAITING entry; a context in GAP evaluates then, and the
flush begins on a free port where nothing holds it back (R12, R31 to R33, R114, R115, R129, R138). That all timers of a frame
that closes stand stopped is log entry 18 (DESIGN CHOICE). -/
def Obligations.StagedWrites : Prop :=
  ∀ (u : Setup) (tag : Word) (a v : Half) (s : State), s.readingControl u → a.toNat < 512 → s.portQuiet →
    ∀ (staged : List Staged), staged = s.sensor.staged ++ [{ address := a, value := v, tag := tag, inProgress := false }] →
    (32 ≤ s.sensor.staged.length →
      ∃ t, exec (.sensorWriteStaged tag a v) s = .next t ∧
        RecordDone u [.control { kind := 0x05, tag := tag, status := .stageFull }] s t ∧ unchangedBut recordParts s t) ∧
    (s.sensor.staged.length < 32 → s.inPhase .c0 .gap = false → s.inPhase .c1 .gap = false →
      ∃ t, exec (.sensorWriteStaged tag a v) s = .next t ∧ RecordTaken u s t ∧ t.engine = engineAfterRecord u s ∧
        (s.link.part ≠ .draining → t.sensor.staged = staged ∧
          t.link.issued = s.link.issued ++ [recordProgress u s] ∧
          timedBut [.ctlRing, .engine, .issued, .staged] s t) ∧
        (s.link.part = .draining → t.sensor.staged = staged.filter Staged.inProgress ∧
          Posts u [recordProgress u s] ((staged.filter fun e => !e.inProgress).map fun e =>
            .control { kind := 0x05, tag := e.tag, status := .discarded }) s t ∧
          timedBut (.staged :: recordParts) s t)) ∧
    (s.sensor.staged.length < 32 → s.link.part ≠ .draining → s.sensor.power = .ready → s.sensor.flush = none →
      s.sensor.port = none → s.blocksFlush .c0 = false → s.blocksFlush .c1 = false →
      (s.inPhase .c0 .gap = true ∨ s.inPhase .c1 .gap = true) →
      ∃ t, exec (.sensorWriteStaged tag a v) s = .next t ∧ RecordTaken u s t ∧ t.engine = engineAfterRecord u s ∧
        t.sensor.staged = (match staged with
          | [] => []
          | e :: rest => { e with inProgress := true } :: rest) ∧
        t.sensor.flush = some { generation := s.sensor.generation + 1, taken := 1 } ∧
        t.sensor.port = staged.head?.map (fun e =>
          { owner := .flush, op := .write e.address e.value, timer := { started := s.now, duration := 2000 } }) ∧
        timedBut [.ctlRing, .engine, .issued, .staged, .flush, .port, .waits] s t) ∧
    (s.sensor.staged.length < 32 → ∀ c f r, s.ctx c = some f → f.phase = .gap → s.inPhase (other c) .gap = false →
      s.request = some r →
      ∀ view, view = { s.sensor with
        staged := if s.link.part = .draining then staged.filter Staged.inProgress else staged } →
      (s.link.part = .draining → view.staged = [] ∨ s.sensor.flush ≠ none) →
      ∃ t, exec (.sensorWriteStaged tag a v) s = .next t ∧ RecordTaken u s t ∧ t.engine = engineAfterRecord u s ∧
        GapTaken r c f view s t ∧ t.ctx (other c) = s.ctx (other c) ∧
        (view.staged = [] ∨ view.power ≠ .ready ∨ view.flush ≠ none ∨ view.port ≠ none ∨ s.blocksFlush (other c) = true →
          t.sensor.staged = view.staged) ∧
        (s.link.part ≠ .draining → t.link.issued = s.link.issued ++ [recordProgress u s] ∧
          timedBut (gapParts c view s ++ [.ctlRing, .engine, .issued, .staged]) s t) ∧
        (s.link.part = .draining →
          Posts u [recordProgress u s] ((staged.filter fun e => !e.inProgress).map fun e =>
            .control { kind := 0x05, tag := e.tag, status := .discarded }) s t ∧
          timedBut (gapParts c view s ++ .staged :: recordParts) s t))

/-- OFF in every power state: in OFF it completes ALREADY; otherwise power is removed, every CURRENT mirror entry becomes STALE,
a flush entry cut off completes SENSOR_OFF, and the record completes DONE (R51, R88, R126, R128).
That the port is free after it also where a transaction that a halt left behind held it is log entry 11 (DESIGN CHOICE),
that the replay's position and counts are 0 then is log entry 17 (DESIGN CHOICE), and that all timers of a frame that closes
stand stopped is log entry 18 (DESIGN CHOICE). -/
def Obligations.SensorPowerOff : Prop :=
  ∀ (u : Setup) (tag : Word) (replay : Bool) (s : State), s.readingControl u →
    ∃ t, exec (.sensorPowerOff tag replay) s = .next t ∧
      (s.sensor.power = .off →
        RecordDone u [.control { kind := 0x07, tag := tag, status := .already }] s t ∧ unchangedBut recordParts s t) ∧
      (s.sensor.power ≠ .off →
        RecordDone u (cutCompletions s ++ [.control { kind := 0x07, tag := tag, status := .done }]) s t ∧
          PowerRemoved s t ∧ t.sensor.power = .off ∧ t.sensor.enableOut = false ∧ t.sensor.settle = none ∧
          t.sensor.replayPos = 0 ∧ t.sensor.replayed = 0 ∧ t.sensor.failed = 0 ∧
          t.sensor.mirror = s.sensor.mirror.map (fun p => (p.1, { p.2 with stale := true })) ∧
          timedBut (powerRemovedParts ++ recordParts) s t)

/-- ON from OFF asserts the enable and settles, with STALE entries forgotten where the replay flag is clear; in SETTLING and
REPLAYING it waits to complete ALREADY; in READY it completes ALREADY (R124). That the replay position is 0 before a replay is
log entry 17 (DESIGN CHOICE). -/
def Obligations.SensorPowerOn : Prop :=
  ∀ (u : Setup) (tag : Word) (replay : Bool) (s : State), s.readingControl u → s.powerForm →
    ∃ t, exec (.sensorPowerOn tag replay) s = .next t ∧
      (s.sensor.power = .off →
        RecordHeld u { tag := tag, work := .power false replay false } s t ∧ PoweringUp replay s.sensor.mirror s t ∧
          timedBut [.ctlRing, .engine, .issued, .power, .replay, .mirror, .waits] s t) ∧
      (s.sensor.power = .settling ∨ s.sensor.power = .replaying →
        RecordHeld u { tag := tag, work := .power false replay true } s t ∧
          unchangedBut [.ctlRing, .engine, .issued] s t) ∧
      (s.sensor.power = .ready →
        RecordDone u [.control { kind := 0x07, tag := tag, status := .already }] s t ∧ unchangedBut recordParts s t)

/-- CYCLE: the steps of an OFF where the sensor is not OFF, then those of an ON from OFF, with the record in hand until READY
(R127). That the port is free after it also where a transaction that a halt left behind held it is log entry 11, that the
replay position is 0 before a replay is log entry 17, and that all timers of a frame that closes stand stopped is log
entry 18 (each a DESIGN CHOICE). -/
def Obligations.SensorPowerCycle : Prop :=
  ∀ (u : Setup) (tag : Word) (replay : Bool) (s : State), s.readingControl u → s.powerForm →
    ∃ t, exec (.sensorPowerCycle tag replay) s = .next t ∧ RecordTaken u s t ∧
      t.engine =
        { mode := .executing, credit := s.engine.credit, job := some { tag := tag, work := .power true replay false } } ∧
      (s.sensor.power = .off →
        t.link.issued = s.link.issued ++ [recordProgress u s] ∧
          PoweringUp replay s.sensor.mirror s t ∧
          timedBut [.ctlRing, .engine, .issued, .power, .replay, .mirror, .waits] s t) ∧
      (s.sensor.power ≠ .off →
        Posts u [recordProgress u s] (cutCompletions s) s t ∧ PowerRemoved s t ∧
          PoweringUp replay (s.sensor.mirror.map fun p => (p.1, { p.2 with stale := true })) s t ∧
          timedBut (powerRemovedParts ++ recordParts) s t)

/-- FLUSH_STAGED by Table 46: SENSOR_OFF in OFF and SETTLING, DONE with nothing staged and no flush, and otherwise it waits; the
flush it asks for waits for a busy port, or begins at once on a free port, where the flush condition holds (R116, R117, R120). -/
def Obligations.FlushStagedFollowsTable46 : Prop :=
  ∀ (u : Setup) (tag : Word) (s : State), s.readingControl u → s.portQuiet →
    ∃ t, exec (.flushStaged tag) s = .next t ∧
      (s.sensor.power = .off ∨ s.sensor.power = .settling →
        RecordDone u [.control { kind := 0x08, tag := tag, status := .sensorOff }] s t ∧ unchangedBut recordParts s t) ∧
      (s.sensor.power = .ready ∨ s.sensor.power = .replaying → s.sensor.staged = [] → s.sensor.flush = none →
        RecordDone u [.control { kind := 0x08, tag := tag, status := .done }] s t ∧
          timedBut (recordParts) s t) ∧
      (s.sensor.power = .ready ∨ s.sensor.power = .replaying →
        s.sensor.flush ≠ none ∨ (s.sensor.staged ≠ [] ∧ s.flushCondition = false) →
        RecordHeld u { tag := tag, work := .flush } s t ∧ timedBut [.ctlRing, .engine, .issued] s t) ∧
      (∀ e rest, s.sensor.staged = e :: rest → s.flushCondition = true → s.sensor.port = none →
        RecordHeld u { tag := tag, work := .flush } s t ∧
          t.sensor.staged = { e with inProgress := true } :: rest ∧
          t.sensor.flush = some { generation := s.sensor.generation + 1, taken := 1 } ∧
          t.sensor.port = some
            { owner := .flush, op := .write e.address e.value, timer := { started := s.now, duration := 2000 } } ∧
          timedBut [.ctlRing, .engine, .issued, .staged, .flush, .port] s t) ∧
      (s.sensor.staged ≠ [] → s.flushCondition = true → s.sensor.port ≠ none →
        RecordHeld u { tag := tag, work := .flush } s t ∧ t.sensor = { s.sensor with flushWaits := true } ∧
          timedBut [.ctlRing, .engine, .issued, .waits] s t)

/-- DISCARD_STAGED: every WAITING entry completes DISCARDED in list order, an IN_PROGRESS entry stays, and the record completes
DONE behind them; a context in GAP evaluates then, and goes on to WAIT_START where nothing is staged (R12, R31 to R33, R121).
That all timers of a frame that closes stand stopped is log entry 18 (DESIGN CHOICE). -/
def Obligations.DiscardStagedCompletesInOrder : Prop :=
  ∀ (u : Setup) (tag : Word) (s : State), s.readingControl u → s.portQuiet →
    ∀ kept, kept = s.sensor.staged.filter Staged.inProgress →
    ∃ t, exec (.discardStaged tag) s = .next t ∧
      RecordDone u (((s.sensor.staged.filter fun e => !e.inProgress).map fun e =>
          .control { kind := 0x05, tag := e.tag, status := .discarded }) ++
        [.control { kind := 0x09, tag := tag, status := .done }]) s t ∧
      (s.inPhase .c0 .gap = false → s.inPhase .c1 .gap = false →
        t.sensor.staged = kept ∧ timedBut (.staged :: recordParts) s t) ∧
      (∀ c f r, s.ctx c = some f → f.phase = .gap → s.inPhase (other c) .gap = false → s.request = some r →
        (kept ≠ [] → s.sensor.flush ≠ none) →
        t.sensor.staged = kept ∧ GapTaken r c f { s.sensor with staged := kept } s t ∧ t.ctx (other c) = s.ctx (other c) ∧
          timedBut (gapParts c { s.sensor with staged := kept } s ++ .staged :: recordParts) s t)

/-- A STOP by tag reaches the oldest eligible entry: the active request has the mode applied, a queued one is marked STOPPED; with
none the record completes NOT_FOUND and the queue is unchanged (R20, R21, R22, R48, R49).
That all timers of a frame that closes stand stopped is log entry 18 (DESIGN CHOICE). -/
def Obligations.StopByTag : Prop :=
  ∀ (u : Setup) (tag request : Word) (k : StopKind) (s : State), s.readingControl u → s.portQuiet → s.framesApart →
    ∃ t, exec (.stopTag tag request k) s = .next t ∧
      ((∀ i e, s.sched.queue[i]? = some e → eligible request s i e = false) →
        RecordDone u [.control { kind := 0x0A, tag := tag, status := .notFound }] s t ∧ unchangedBut recordParts s t) ∧
      (∀ i e, s.sched.queue[i]? = some e → eligible request s i e = true →
        (∀ j d, j < i → s.sched.queue[j]? = some d → eligible request s j d = false) →
        RecordDone u [.control { kind := 0x0A, tag := tag, status := .done }] s t ∧
          (0 < i → t.sched.queue = s.sched.queue.set i { e with mark := .stopped } ∧
            timedBut (.queue :: recordParts) s t) ∧
          (i = 0 → StopApplied k s t ∧ timedBut (stopAppliedParts ++ recordParts) s t))

/-- A STOP of all requests: the Capture Ring tail becomes the flush mark, entries behind the head with no mark become FLUSHED,
and the mode is applied to the active request unless it is REJECTED or marked; the record completes DONE, and the Capture
Scheduler tests its fetch conditions (R3, R12, R20, R22, R23, R24, R48, R49).
That all timers of a frame that closes stand stopped is log entry 18 (DESIGN CHOICE). -/
def Obligations.StopAll : Prop :=
  ∀ (u : Setup) (tag request : Word) (k : StopKind) (s : State), s.readingControl u → s.portQuiet → s.framesApart →
    s.stopForm →
    ∃ t, exec (.stopAll tag request k) s = .next t ∧
      RecordDone u [.control { kind := 0x0A, tag := tag, status := .done }] s t ∧
      t.sched.flushMark = (if s.ring.capTail.toNat = s.ring.capHead then none else some s.ring.capTail.toNat) ∧
      t.sched.queue = s.sched.queue.head?.toList ++ s.sched.queue.tail.map (fun e =>
        if e.mark = .none then { e with mark := .flushed } else e) ∧
      (s.liveRequest.isSome = true → StopApplied k s t) ∧
      (s.liveRequest.isSome = false → t.seq = s.seq ∧ t.recv = s.recv ∧ t.sched.stopMode = s.sched.stopMode ∧
        t.sched.endCause = s.sched.endCause) ∧ CaptureTested u s t ∧
      timedBut ([.flushMark, .queue, .capCredit, .capRing] ++ stopAppliedParts ++ recordParts) s t

/-! ## Frames -/

/-- A frame is begun in the context the next-context pointer names when R13 allows it, and the pointer turns; otherwise nothing
happens (R13, R27, R28). That of a head with a stop mark none is begun is log entry 26 (DEDUCED).
That a command whose event cannot come now does nothing is the model's
choice (log entry 1). -/
def Obligations.FrameIsBegun : Prop :=
  ∀ s : State, ∃ t, exec .frameBegin s = .next t ∧
    (∀ e r, MayBegin e r s →
      t.ctx s.seq.next = some
          { phase := .reserving
            index := e.begun
            assignments := r.windows.map fun n =>
              { window := n, buffer := none, written := 0, byteSize := 0, result := none }
            slots := if r.windows.length ≤ 2 then 1 else 2
            creditHeld := false
            returnAsked := false
            expStart := none
            actual := none
            endPending := false
            generation := none
            sensorFrame := none
            badLines := 0
            missingLines := 0
            missed := 0
            flags := {}
            timedOut := false
            outcome := none
            leadTimer := none
            expTimer := none
            trigTimer := none } ∧
        t.ctx (other s.seq.next) = s.ctx (other s.seq.next) ∧ t.seq.next = other s.seq.next ∧
        t.sched.queue = { e with begun := e.begun + 1 } :: s.sched.queue.tail ∧
        unchangedBut [.contexts, .pointer, .queue] s t) ∧
    ((∀ e r, ¬ MayBegin e r s) → t = s)

/-- TRIGGER transitions and interval ticks as start events: a context in WAIT_START starts, a start event that meets none is
early, and a transition that means nothing for the active request changes the level alone. A change at the TRIGGER pin
starts the filter's 1 µs, or ends it where the pin is back at the filtered level, so that neither transition of a shorter
pulse is taken (R12, R34, R35, R37, R39, R40, R185).
That both the change at the pin and the filtered transition are TRIGGER_TRANSITION, and that a return taken exactly 1 µs after
the change, before the filtered transition, ends the hold, is log entry 4 (DESIGN CHOICE); that a
head that is REJECTED or marked meets no event is log entry 26 (DEDUCED).
That a command whose event cannot come now does nothing is the model's
choice (log entry 1). -/
def Obligations.StartEvents : Prop :=
  ∀ s : State,
    (∀ level : Level,
      exec (.triggerTransition (.pin level)) s = .next
        (if s.seq.pin = level then s
        else { s with seq := { s.seq with
          pin := level
          hold := if level = s.seq.trigger then none else some { started := s.now, duration := 1 } } }) ∧
      (level ≠ s.seq.pin → s.seq.pin = s.seq.trigger → s.seq.hold = none →
        ∀ later : Stamp, (later - s.now).toNat ≤ 1 → ∃ t, exec (.triggerTransition (.pin level)) s = .next t ∧
          exec (.triggerTransition (.pin s.seq.pin)) { t with now := later } = .next { s with now := later })) ∧
    (isDue s.now s.seq.hold = false → exec (.triggerTransition .held) s = .next s) ∧
    (∀ r : CaptureRequest, s.portQuiet → isDue s.now s.seq.hold = true → s.liveRequest = some r →
      (r.source = .edge ∨ r.source = .level) → s.seq.pin = (if r.falling then Level.low else .high) →
      ∃ t, exec (.triggerTransition .held) s = .next t ∧ t.seq.trigger = s.seq.pin ∧ t.seq.pin = s.seq.pin ∧
        t.seq.hold = none ∧
        timedBut [.trigger, .contexts, .lines, .latch, .missed] s t ∧
        (∀ c f, s.ctx c = some f → f.phase = .waitStart → s.inPhase (other c) .waitStart = false →
          StartMet r c f s t ∧ t.ctx (other c) = s.ctx (other c) ∧ t.seq.latch = s.seq.latch ∧
            t.seq.missed = s.seq.missed) ∧
        (s.inPhase .c0 .waitStart = false → s.inPhase .c1 .waitStart = false →
          EarlyTaken r s t ∧ timedBut [.trigger, .latch, .missed] s t)) ∧
    (isDue s.now s.seq.hold = true →
      (∀ r, s.liveRequest = some r → r.source = .software ∨ r.source = .interval ∨
        (r.source = .edge ∧ s.seq.pin ≠ if r.falling then Level.low else .high)) →
      exec (.triggerTransition .held) s = .next { s with seq := { s.seq with trigger := s.seq.pin, hold := none } }) ∧
    (∀ (tm : Timer) (r : CaptureRequest), s.portQuiet → s.sched.interval = some tm → s.liveRequest = some r →
      (tm.duration ≤ (s.now - tm.started).toNat →
        ∀ ticked, ticked = { s with sched := { s.sched with
          interval := some { started := tm.started + BitVec.ofNat 64 tm.duration, duration := r.interval } } } →
        ∃ t, exec .intervalTick s = .next t ∧
          timedBut [.contexts, .lines, .latch, .missed] ticked t ∧
          (∀ c f, s.ctx c = some f → f.phase = .waitStart → s.inPhase (other c) .waitStart = false →
            StartMet r c f s t ∧ t.ctx (other c) = s.ctx (other c) ∧ t.seq.latch = s.seq.latch ∧
              t.seq.missed = s.seq.missed) ∧
          (s.inPhase .c0 .waitStart = false → s.inPhase .c1 .waitStart = false →
            EarlyTaken r s t ∧ timedBut [.latch, .missed] ticked t)) ∧
      ((s.now - tm.started).toNat < tm.duration → exec .intervalTick s = .next s))

/-- The end of an exposure: by its timer in every start source, and by an end event of a LEVEL request that is not SHORT_LEVEL.
It is deferred, and the frame STRETCHED, while the other context is in READOUT; an end event in LEAD makes the frame
SHORT_LEVEL (R34, R39, R41 to R44, R185). That a deferred end keeps the exposure timer, whose later expiry clears the timer alone, is
log entry 27 (DEDUCED); that the filtered transition is TRIGGER_TRANSITION after the filter's 1 µs is log entry 4
(DESIGN CHOICE).
That a command whose event cannot come now does nothing is the model's
choice (log entry 1). -/
def Obligations.ExposureEnds : Prop :=
  ∀ (c : CtxId) (f : Frame) (s : State), s.portQuiet → s.ctx c = some f →
    (f.phase = .exposing → isDue s.now f.expTimer = true →
      ∃ t, exec (.exposureTimerExpiry c) s = .next t ∧ t.ctx (other c) = s.ctx (other c) ∧
        (f.endPending = true → t.ctx c = some { f with expTimer := none } ∧ unchangedBut [.contexts] s t) ∧
        (f.endPending = false → s.inPhase (other c) .readout = true →
          t.ctx c = some { f with
            expTimer := none, endPending := true, flags := { f.flags with stretched := true } } ∧
            timedBut [.contexts] s t) ∧
        (f.endPending = false → s.inPhase (other c) .readout = false →
          ExposureEnded c f s t ∧ timedBut [.contexts, .lines, .receiver] s t)) ∧
    (¬ (f.phase = .exposing ∧ isDue s.now f.expTimer = true) → exec (.exposureTimerExpiry c) s = .next s) ∧
    (∀ r : CaptureRequest, isDue s.now s.seq.hold = true → s.liveRequest = some r → r.source = .level →
      s.seq.pin ≠ (if r.falling then Level.low else .high) →
      s.inPhase (other c) .lead = false → s.inPhase (other c) .exposing = false →
      ∃ t, exec (.triggerTransition .held) s = .next t ∧ t.seq.trigger = s.seq.pin ∧ t.seq.pin = s.seq.pin ∧
        t.seq.hold = none ∧
        t.ctx (other c) = s.ctx (other c) ∧
        (f.phase = .lead → t.ctx c = some { f with flags := { f.flags with shortLevel := true } } ∧
          timedBut [.trigger, .contexts] s t) ∧
        (f.phase = .exposing → f.endPending = false → f.flags.shortLevel = false → s.inPhase (other c) .readout = true →
          t.ctx c = some { f with endPending := true, flags := { f.flags with stretched := true } } ∧
            timedBut [.trigger, .contexts] s t) ∧
        (f.phase = .exposing → f.endPending = false → f.flags.shortLevel = false → s.inPhase (other c) .readout = false →
          ExposureEnded c f s t ∧ timedBut [.trigger, .contexts, .lines, .receiver] s t) ∧
        (f.phase ≠ .lead → (f.phase = .exposing → f.endPending = true ∨ f.flags.shortLevel = true) →
          timedBut [.trigger] s t))

/-- The lead timer takes a context in LEAD to EXPOSING, and the trigger-timeout timer closes a context in WAIT_START with
TRIGGER_TIMEOUT; neither acts before it is due or in another state. A FLUSH_STAGED that waits with settings staged gets its
flush when the close lifts what held it back (R36, R39, R40, R116, R120).
That a command whose event cannot come now does nothing is the model's choice (log entry 1), and that all timers of a frame
that closes stand stopped is log entry 18 (DESIGN CHOICE). -/
def Obligations.LeadAndTimeoutExpiries : Prop :=
  ∀ (c : CtxId) (f : Frame) (s : State), s.ctx c = some f →
    (∀ r, s.portQuiet → s.request = some r → f.phase = .lead → isDue s.now f.leadTimer = true →
      ∃ t, exec (.leadExpiry c) s = .next t ∧
        t.ctx c = some { f with
          phase := .exposing
          leadTimer := none
          expStart := some s.now
          expTimer := some { started := s.now, duration := if f.flags.shortLevel then 10 else r.exposure } } ∧
        t.seq.expose = true ∧ t.seq.strobe = (s.seq.strobe || r.strobe) ∧ t.ctx (other c) = s.ctx (other c) ∧
        timedBut [.contexts, .lines] s t) ∧
    (f.phase = .waitStart → isDue s.now f.trigTimer = true →
      (s.portQuiet →
        ∃ t, exec (.triggerTimeoutExpiry c) s = .next t ∧ ClosedNow c .triggerTimeout f s t ∧
          t.ctx (other c) = s.ctx (other c) ∧ timedBut [.contexts, .stop] s t) ∧
      (s.flushRecord.isSome = true → s.noneWaits → s.sensor.power = .ready → s.sensor.flush = none →
        s.sensor.staged ≠ [] → s.blocksFlush (other c) = false →
        ∃ t, exec (.triggerTimeoutExpiry c) s = .next t ∧ ClosedNow c .triggerTimeout f s t ∧
          t.ctx (other c) = s.ctx (other c) ∧
          (s.sensor.port = none → FlushBegun s.sensor s t ∧
            timedBut [.contexts, .stop, .staged, .flush, .port] s t) ∧
          (s.sensor.port ≠ none → t.sensor = { s.sensor with flushWaits := true } ∧
            timedBut [.contexts, .stop, .waits] s t))) ∧
    (¬ (f.phase = .lead ∧ isDue s.now f.leadTimer = true) → exec (.leadExpiry c) s = .next s) ∧
    (¬ (f.phase = .waitStart ∧ isDue s.now f.trigTimer = true) → exec (.triggerTimeoutExpiry c) s = .next s)

/-! ## The pixel stream and the Output Store -/

/-- FRAME_START by Table 32, and the packets that are stray: in IDLE every packet, in EXPECTING a LINE and a FRAME_END, and an
unknown packet always; a stray packet adds one to the stray count and changes nothing else. A FRAME_START in RECEIVING ends
the readout, and the other context, if it is in GAP, evaluates then; a FLUSH_STAGED that waits with settings staged gets its
flush when that lifts what held it back (R31 to R33, R78, R79, R84, R86, R116, R120).
That all timers of a frame that closes stand stopped is log entry 18 (DESIGN CHOICE). -/
def Obligations.FrameStartsAndStrayPackets : Prop :=
  ∀ s : State,
    (∀ i, i = .unknownPacket ∨ (s.recv.state = .idle ∧ ((∃ n, i = .frameStart n) ∨ (∃ n p k, i = .line n p k) ∨
          ∃ n, i = .frameEnd n)) ∨
        (s.recv.state = .expecting ∧ ((∃ n p k, i = .line n p k) ∨ ∃ n, i = .frameEnd n)) →
      ∃ t, exec i s = .next t ∧ t.recv.stray = min (s.recv.stray + 1) 65535 ∧ unchangedBut [.stray] s t) ∧
    (∀ number c f, s.recv.state = .expecting → s.recv.served = some c → s.ctx c = some f →
      ∃ t, exec (.frameStart number) s = .next t ∧ t.recv = { s.recv with state := .receiving } ∧
        t.ctx c = some { f with sensorFrame := some number } ∧ t.ctx (other c) = s.ctx (other c) ∧
        unchangedBut [.receiver, .contexts] s t) ∧
    (∀ number c f, s.recv.state = .receiving → s.recv.served = some c → s.ctx c = some f →
      f.phase = .readout → ∀ ended, ended = { f with flags := { f.flags with sequence := true } } →
      ∃ t, exec (.frameStart number) s = .next t ∧ t.recv.stray = min (s.recv.stray + 1) 65535 ∧
        (s.portQuiet → s.inPhase (other c) .gap = false →
          ReadoutEnded c ended s t ∧ timedBut [.receiver, .stray, .contexts, .stop, .lines] s t) ∧
        (s.portQuiet → ReadoutEndedBesideGap c ended s t) ∧ ReadoutLiftsFlush c ended s t)

/-- A LINE in RECEIVING: Table 33 places it, its skipped lines are missing, a wrong length or check value makes it bad, and a line
of the right length is put in raster order and cut unless its frame is flagged DISCARD (R67, R69, R70, R74, R79 to R82).
That a pixel value is read as its low bits, as many as the pixel depth, is log entry 9 (DEDUCED); that the slices of a line
stand in hand, to be offered one by one after it, is log entry 8 (DESIGN CHOICE). -/
def Obligations.LinesAreTestedAndCut : Prop :=
  ∀ (number : Half) (pixels : List Half) (check : Half) (c : CtxId) (f : Frame) (s : State),
    s.recv.state = .receiving → s.recv.served = some c → s.ctx c = some f →
    ∀ values, values = pixels.map (fun p => p.toNat % 2 ^ s.depth) →
    ∃ t, exec (.line number pixels check) s = .next t ∧ t.ctx (other c) = s.ctx (other c) ∧
      (s.lines ≤ number.toNat ∨ number.toNat < s.recv.expected →
        t.ctx c = some { f with flags := { f.flags with sequence := true } } ∧ unchangedBut [.contexts] s t) ∧
      (number.toNat < s.lines → s.recv.expected ≤ number.toNat →
        t.recv = { s.recv with expected := number.toNat + 1 } ∧
        t.ctx c = some { f with
          missingLines := f.missingLines + (number.toNat - s.recv.expected)
          badLines := f.badLines + (if pixels.length ≠ s.columns ∨ values.sum % 65536 ≠ check.toNat then 1 else 0)
          flags := { f.flags with
            sequence := f.flags.sequence || decide (s.recv.expected < number.toNat)
            badLines := f.flags.badLines || decide (pixels.length ≠ s.columns ∨ values.sum % 65536 ≠ check.toNat) } } ∧
        t.cutter.inHand = s.cutter.inHand ++
          (if pixels.length ≠ s.columns ∨ f.flags.discard = true then []
          else (s.request.map fun r => cutLine s.cutter.windows c s.depth number.toNat
            (assemble s.cutter.order s.columns values) 0 r.windows).getD []) ∧
        unchangedBut [.contexts, .receiver, .inHand] s t)

/-- A FRAME_END in RECEIVING and the expiry of the frame timer end the readout: tail lines and a wrong count are found at the
FRAME_END, a timeout is marked, the receiver is IDLE, and the context closes by Table 16; the other context, if it is in
GAP, evaluates then, and a FLUSH_STAGED that waits with settings staged gets its flush when the end lifts what held it back.
The timer does nothing before it is due (R31 to R33, R45, R47, R84, R85, R116, R120).
That a command whose event cannot come now does nothing is the model's choice (log entry 1), and that all timers of a frame
that closes stand stopped is log entry 18 (DESIGN CHOICE). -/
def Obligations.ReadoutsEnd : Prop :=
  ∀ (c : CtxId) (f : Frame) (s : State), s.recv.served = some c → s.ctx c = some f → f.phase = .readout →
    (∀ count : Half, s.recv.state = .receiving →
      ∀ ended, ended = { f with
        missingLines := f.missingLines + (s.lines - s.recv.expected)
        flags := { f.flags with
          sequence := f.flags.sequence || decide (s.recv.expected < s.lines ∨ count.toNat ≠ s.lines) } } →
      ∃ t, exec (.frameEnd count) s = .next t ∧
        (s.portQuiet → s.inPhase (other c) .gap = false →
          ReadoutEnded c ended s t ∧ timedBut [.receiver, .contexts, .stop, .lines] s t) ∧
        (s.portQuiet → ReadoutEndedBesideGap c ended s t) ∧ ReadoutLiftsFlush c ended s t ∧
        t.recv.stray = s.recv.stray) ∧
    (s.recv.state ≠ .idle → isDue s.now s.recv.timer = true →
      ∃ t, exec .frameTimerExpiry s = .next t ∧
        (s.portQuiet → s.inPhase (other c) .gap = false →
          ReadoutEnded c { f with timedOut := true } s t ∧
            timedBut [.receiver, .contexts, .stop, .lines] s t) ∧
        (s.portQuiet → ReadoutEndedBesideGap c { f with timedOut := true } s t) ∧
        ReadoutLiftsFlush c { f with timedOut := true } s t ∧ t.recv.stray = s.recv.stray) ∧
    (s.recv.state = .idle ∨ isDue s.now s.recv.timer = false → exec .frameTimerExpiry s = .next s)

/-- The oldest slice in hand is admitted or dropped by Table 40, in a state whose store is within its bound (R100, R101). -/
def Obligations.SlicesAreAdmitted : Prop :=
  ∀ (sl : Slice) (rest : List Slice) (f : Frame) (s : State), s.listsBounded → s.cutter.inHand = sl :: rest →
    s.ctx sl.ctx = some f →
    ∃ t, exec .sliceOffer s = .next t ∧ t.cutter.inHand = rest ∧
      (f.flags.overrun = true → unchangedBut [.inHand] s t) ∧
      (f.flags.overrun = false → 131072 < (s.store.slices.map Slice.size).sum + sl.size →
        t.ctx sl.ctx = some { f with flags := { f.flags with overrun := true } } ∧
          t.ctx (other sl.ctx) = s.ctx (other sl.ctx) ∧ unchangedBut [.inHand, .contexts] s t) ∧
      (f.flags.overrun = false → (s.store.slices.map Slice.size).sum + sl.size ≤ 131072 →
        t.store.slices = s.store.slices ++ [sl] ∧ unchangedBut [.inHand, .store] s t)

/-- The oldest slice of the store is written to its buffer at its offset, leaves the list, and adds its size to the bytes written
of its assignment (R66, R71, R103). -/
def Obligations.SlicesAreWritten : Prop :=
  ∀ (sl : Slice) (rest : List Slice) (f : Frame) (a : Assignment) (b : BufferRef) (s : State),
    s.store.slices = sl :: rest → s.ctx sl.ctx = some f → f.assignments[sl.position]? = some a → a.buffer = some b →
    ∃ t, exec .sliceWriteDone s = .next t ∧ t.store.slices = rest ∧
      t.link.issued = s.link.issued ++ [.memory (b.addr + BitVec.ofNat 64 sl.offset) sl.data] ∧
      t.ctx sl.ctx = some { f with
        assignments := f.assignments.set sl.position { a with written := a.written + sl.data.length } } ∧
      t.ctx (other sl.ctx) = s.ctx (other sl.ctx) ∧ unchangedBut [.store, .issued, .contexts] s t

/-- A frame posts when it is in CLOSING with its credit held, no slice of it remains and its index is the frames ended: its FRAME
completion carries its fields, each result status by Table 41, and the stray count, in one slot or two with every byte as
Tables 80 and 82 have it; the context is FREE and the request's counts go up. Otherwise nothing happens (R14, R46, R55, R87,
R105, R160, R162, R183). That a command whose event cannot come now does nothing is the model's choice (log entry 1). -/
def Obligations.FramesArePosted : Prop :=
  ∀ (c : CtxId) (s : State), s.portQuiet →
    (∀ u e f, s.ring.setup = some u → MayPost c e f s → ∀ o, f.outcome = some o →
      ∃ t, exec (.framePost c) s = .next t ∧
        Posts u [] [.frame
          { tag := e.tag, index := f.index, outcome := o, flags := f.flags
            assignments := f.assignments.map fun a => { a with
              result := some (match a.buffer with
                | none => .noBuffer
                | some _ => if a.written = a.byteSize then .complete
                  else if 0 < a.written then .partialRows else .empty) }
            expStart := f.expStart, actual := f.actual, generation := f.generation, sensorFrame := f.sensorFrame
            badLines := f.badLines, missingLines := f.missingLines, missed := f.missed, stray := s.recv.stray }] s t ∧
        t.ctx c = none ∧ t.ctx (other c) = s.ctx (other c) ∧ t.recv.stray = 0 ∧
        t.sched.queue = { e with
          ended := e.ended + 1
          good := e.good + (if o = .good then 1 else 0)
          skipped := e.skipped + (if o = .skipped then 1 else 0) } :: s.sched.queue.tail ∧
        t.reserved + f.slots = s.reserved ∧
        timedBut ([.contexts, .stray, .queue] ++ postParts) s t) ∧
    ((∀ e f, ¬ MayPost c e f s) → exec (.framePost c) s = .next s)

/-- The active request ends when one of the conditions of R16 holds: REQUEST_END with the status of Table 10 and every byte of its
slot as Tables 80 and 82 have it, its windows unpinned, its entry gone, the next entry active, and the fetch conditions of the
Capture Scheduler tested; otherwise nothing happens (R3, R11, R12, R16 to R19, R37, R38, R160, R183). That the first tick of
an INTERVAL request that becomes active comes within the command is log entry 31 (DEDUCED). That a command whose event cannot
come now does nothing is the model's choice (log entry 1). -/
def Obligations.RequestsEnd : Prop :=
  ∀ s : State,
    (∀ u e, s.ring.setup = some u → RequestOver e s → ∀ rest, rest = s.sched.queue.tail →
      ∃ t, exec .requestEnd s = .next t ∧
        Posts u [] [.requestEnd
          { tag := e.tag
            status := match e.form, e.mark, s.sched.endCause with
              | .rejected _, _, _ => .badRequest
              | _, .flushed, _ => .flushed
              | _, .stopped, _ => .stopped
              | _, .none, some .stopped => .stopped
              | _, .none, some .aborted => .aborted
              | _, .none, some .triggerTimeout => .triggerTimeout
              | _, .none, some .sensorOff => .sensorOff
              | _, .none, some .sensorLost => .sensorLost
              | _, .none, none => .complete
            detail := match e.form with
              | .rejected d => d
              | _ => .none
            begun := e.begun
            good := e.good
            skipped := e.skipped
            missed := min (e.missed + s.seq.missed) 65535 }] s t ∧
        t.sched.queue = rest ∧
        (rest = [] → t.sched.stopMode = .none ∧ t.sched.endCause = none ∧ t.sched.interval = none ∧ t.seq.missed = 0 ∧
          t.seq.latch = s.seq.latch) ∧
        (∀ n more, rest = n :: more → BecameActive n s t) ∧
        (∀ n, (windowAt t.cutter.windows n).window = (windowAt s.cutter.windows n).window) ∧
        (∀ n, e.request.all (fun r => decide (r.windows.Nodup ∧ ∀ m ∈ r.windows, m < s.cutter.windows.length)) = true →
          (windowAt t.cutter.windows n).refs = (windowAt s.cutter.windows n).refs -
            (if e.request.any (fun r => decide (n ∈ r.windows)) then 1 else 0)) ∧
        CaptureTested u s t ∧
        unchangedBut ([.queue, .stop, .interval, .latch, .missed, .windows, .capCredit, .capRing] ++ postParts) s t) ∧
    ((∀ e, ¬ RequestOver e s) → exec .requestEnd s = .next s)

/-! ## The sensor port -/

/-- The end of a transaction of the Control Engine, by acknowledge or by timeout: the port is free, a successful WRITE is recorded
in the mirror, and the record completes DONE, with the value of a READ, or PORT_TIMEOUT; with no transaction in progress
nothing happens, and the timeout acts only when the timer has expired. A transaction whose record a halt has cleared frees
the port, its successful WRITE is recorded, and nothing is reported. The free port passes on to the first that waits for it:
a replay, a flush whose condition holds, or a WRITE or READ (R109, R110, R112, R113, R116, R125, R130, R138).
That a command whose event cannot come now does nothing is the model's
choice (log entry 1). -/
def Obligations.EngineTransactionsEnd : Prop :=
  (∀ (u : Setup) (j : Job) (tx : Transaction) (value : Half) (ok : Bool) (s : State),
    s.ring.setup = some u → s.sensor.port = some tx → tx.owner = .engine → s.engine.job = some j →
    (ok = false → isDue s.now (some tx.timer) = true) →
    ∀ mirror, mirror = (match ok, tx.op with
      | true, .write a v => mirrorSet a.toNat { stale := false, value := v } s.sensor.mirror
      | _, _ => s.sensor.mirror) →
    ∃ t, exec (if ok then .sensorAck value else .ackTimeout) s = .next t ∧ t.sensor.mirror = mirror ∧
      Posts u [] [.control (match tx.op with
        | .write _ _ => { kind := 0x05, tag := j.tag, status := if ok then .done else .portTimeout }
        | .read _ => { kind := 0x06, tag := j.tag, status := if ok then .done else .portTimeout, read := if ok then value else 0 })]
        s t ∧
      t.engine = engineNext s ∧
      (s.sensor.replayWaits = false → s.sensor.flushWaits = false → t.sensor.port = none ∧
        timedBut ([.port, .mirror, .engine, .waits] ++ postParts) s t) ∧
      (s.sensor.engineWaits = false → PortPassedOn ([.mirror, .engine] ++ postParts)
        { s.sensor with port := none, mirror := mirror } s t)) ∧
  (∀ (tx : Transaction) (value : Half) (ok : Bool) (s : State),
    s.sensor.port = some tx → tx.owner = .cleared → (ok = false → isDue s.now (some tx.timer) = true) →
    ∀ mirror, mirror = (match ok, tx.op with
      | true, .write a v => mirrorSet a.toNat { stale := false, value := v } s.sensor.mirror
      | _, _ => s.sensor.mirror) →
    ∃ t, exec (if ok then .sensorAck value else .ackTimeout) s = .next t ∧ t.sensor.mirror = mirror ∧
      (s.noneWaits → s.noFlushRecord → t.sensor.port = none ∧ timedBut [.port, .mirror] s t) ∧
      PortPassedOn [.mirror] { s.sensor with port := none, mirror := mirror } s t) ∧
  ∀ s : State,
    (s.sensor.port = none → ∀ value, exec (.sensorAck value) s = .next s ∧ exec .ackTimeout s = .next s) ∧
      ∀ tx, s.sensor.port = some tx → isDue s.now (some tx.timer) = false → exec .ackTimeout s = .next s

/-- The end of a flush entry's WRITE: the entry leaves the list and completes APPLIED with the flush's generation, or PORT_TIMEOUT
with none; with entries left the next is written at once. With none left the flush ends: the port is free, the generation
advances, a FLUSH_STAGED that waits completes DONE, a context in GAP evaluates, and a WRITE or READ that waits for the port
has its transaction. A flush whose entry a halt removed ends with its WRITE in the same way, with no completion, also where
the part has entered STARTING since, and the free port passes on to the first that waits for it (R31 to R33, R110, R113, R116
to R118, R120, R130, R140). How the WRITE of a flush goes on through STARTING is log entry 29 (DEDUCED), and that all timers
of a frame that closes stand stopped is log entry 18 (DESIGN CHOICE). -/
def Obligations.FlushWritesEnd : Prop :=
  (∀ (u : Setup) (tx : Transaction) (a v value : Half) (fl : Flush) (ok : Bool) (s : State),
    s.ring.setup = some u → s.sensor.port = some tx → tx.owner = .flush → tx.op = .write a v →
    s.sensor.flush = some fl → fl.taken ≠ 0 → (ok = false → isDue s.now (some tx.timer) = true) →
    ∃ t, exec (if ok then .sensorAck value else .ackTimeout) s = .next t ∧
      t.sensor.mirror =
        (if ok then mirrorSet a.toNat { stale := false, value := v } s.sensor.mirror else s.sensor.mirror) ∧
      (∀ e rest, s.sensor.staged = e :: rest → e.inProgress = true →
        ∀ entry, entry = Completion.control
          { kind := 0x05, tag := e.tag, status := if ok then .applied else .portTimeout
            generation := if ok then some fl.generation else none } →
        (∀ n more, rest = n :: more →
          Posts u [] [entry] s t ∧
          t.sensor.staged = { n with inProgress := true } :: more ∧ t.sensor.flush = some { fl with taken := fl.taken + 1 } ∧
            t.sensor.port = some
              { owner := .flush, op := .write n.address n.value, timer := { started := s.now, duration := 2000 } } ∧
            t.sensor.generation = s.sensor.generation ∧
            timedBut ([.port, .mirror, .staged, .flush] ++ postParts) s t) ∧
        (rest = [] → s.sensor.replayWaits = false → s.sensor.engineWaits = true →
          ∀ j op, s.engine.job = some j → j.work.op = some op →
          Posts u [] [entry] s t ∧
            t.sensor = { s.sensor with
              mirror := t.sensor.mirror
              staged := []
              flush := none
              generation := fl.generation
              flushWaits := false
              engineWaits := false
              port := some (begunNow .engine op s) } ∧
            (s.inPhase .c0 .gap = false → s.inPhase .c1 .gap = false →
              timedBut ([.port, .waits, .mirror, .staged, .flush, .generation] ++ postParts) s t) ∧
            ∀ c f r, s.ctx c = some f → f.phase = .gap → s.inPhase (other c) .gap = false → s.request = some r →
              ∀ view, view = { s.sensor with staged := [], flush := none, port := none, generation := fl.generation } →
              GapTaken r c f view s t ∧ t.ctx (other c) = s.ctx (other c) ∧
                timedBut (gapParts c view s ++
                  [.port, .waits, .mirror, .staged, .flush, .generation] ++ postParts) s t) ∧
        (rest = [] → s.noneWaits →
          Posts u [] (entry :: s.flushRecord.toList.map flushDone) s t ∧ t.sensor.staged = [] ∧ t.sensor.flush = none ∧
            t.sensor.port = none ∧ t.sensor.generation = fl.generation ∧
            t.engine = (if s.flushRecord.isSome then engineNext s else s.engine) ∧
            (s.inPhase .c0 .gap = false → s.inPhase .c1 .gap = false →
              timedBut ([.port, .mirror, .staged, .flush, .generation, .engine] ++ postParts) s t) ∧
            ∀ c f r, s.ctx c = some f → f.phase = .gap → s.inPhase (other c) .gap = false → s.request = some r →
              ∀ view, view = { s.sensor with staged := [], flush := none, port := none, generation := fl.generation } →
              GapTaken r c f view s t ∧ t.ctx (other c) = s.ctx (other c) ∧
                timedBut (gapParts c view s ++
                  [.port, .mirror, .staged, .flush, .generation, .engine] ++ postParts) s t)) ∧
      (s.sensor.staged.head?.any Staged.inProgress = false → s.inPhase .c0 .gap = false → s.inPhase .c1 .gap = false →
        PortPassedOn [.mirror, .flush, .generation]
          { s.sensor with port := none, mirror := t.sensor.mirror, flush := none, generation := fl.generation } s t) ∧
      (s.sensor.staged.head?.any Staged.inProgress = false → s.noneWaits → s.noFlushRecord →
        t.sensor.generation = fl.generation ∧
          (s.inPhase .c0 .gap = false → s.inPhase .c1 .gap = false →
            t.sensor.flush = none ∧ t.sensor.port = none ∧
              timedBut [.port, .mirror, .flush, .generation] s t) ∧
          ∀ c f r, s.ctx c = some f → f.phase = .gap → s.inPhase (other c) .gap = false → s.request = some r →
            ∀ view, view = { s.sensor with flush := none, port := none, generation := fl.generation } →
            GapTaken r c f view s t ∧ t.ctx (other c) = s.ctx (other c) ∧
              timedBut (gapParts c view s ++ [.port, .mirror, .flush, .generation]) s t)) ∧
  ∀ (tx : Transaction) (g : Word) (a v value : Half) (ok : Bool) (s : State),
    s.sensor.port = some tx → tx.owner = .leftFlush g → tx.op = .write a v →
    (ok = false → isDue s.now (some tx.timer) = true) →
    ∀ mirror, mirror = (if ok then mirrorSet a.toNat { stale := false, value := v } s.sensor.mirror
      else s.sensor.mirror) →
    ∃ t, exec (if ok then .sensorAck value else .ackTimeout) s = .next t ∧ t.sensor.mirror = mirror ∧
      t.sensor.generation = g ∧
      (s.noneWaits → s.noFlushRecord → t.sensor.port = none ∧
        timedBut [.port, .mirror, .generation] s t) ∧
      PortPassedOn [.mirror, .generation]
        { s.sensor with port := none, mirror := mirror, generation := g } s t

/-- The settle timer takes SETTLING to REPLAYING where the replay flag is set and a mirror entry is STALE, with the lowest STALE entry
written at once on a free port, and to READY otherwise. The replay goes on entry by entry in ascending address order, and
READY follows its last entry. At READY an ON or CYCLE in hand completes DONE with the replay's counts, a joined ON
completes ALREADY, a WRITE or READ that waited has its transaction, a FLUSH_STAGED that waited its flush, and a context in
GAP evaluates (R31 to R33, R110, R113, R120, R124, R125, R127).
That a command whose event cannot come now does nothing is the model's choice (log entry 1), and that the position and the counts
of a replay that has ended are 0 is log entry 17 (DESIGN CHOICE). -/
def Obligations.SettleAndReplay : Prop :=
  (∀ s : State, s.sensor.power = .settling → isDue s.now s.sensor.settle = true → s.powerForm → s.replayForm →
    (s.sensor.port ≠ none ∨ s.noneWaits) → s.noFlushRecord →
    ∃ t, exec .settleTimerExpiry s = .next t ∧ t.sensor.settle = none ∧
      (∀ p, s.sensor.replayFlag = true → nextStale 0 s.sensor.mirror = some p → s.sensor.port = none →
        t.sensor.power = .replaying ∧
          t.sensor.port = some
            { owner := .replay, op := .write (BitVec.ofNat 16 p.1) p.2.value, timer := { started := s.now, duration := 2000 } } ∧
          t.sensor.replayPos = p.1 + 1 ∧ timedBut [.power, .port, .replay] s t) ∧
      (s.sensor.replayFlag = true → nextStale 0 s.sensor.mirror ≠ none → s.sensor.port ≠ none →
        t.sensor = { s.sensor with power := .replaying, settle := none, replayWaits := true } ∧
          timedBut [.power, .waits] s t) ∧
      (∀ u, s.sensor.replayFlag = false ∨ nextStale 0 s.sensor.mirror = none → s.ring.setup = some u →
        s.sensor.port = none →
        ReadyReached u 0 0 s t ∧
          (s.inPhase .c0 .gap = false → s.inPhase .c1 .gap = false →
            timedBut ([.power, .engine, .port] ++ postParts) s t) ∧
          ∀ c f r, s.ctx c = some f → f.phase = .gap → s.inPhase (other c) .gap = false → s.request = some r →
            (∀ j, s.engine.job = some j → j.work.address = none) → ∀ view, view = { s.sensor with power := .ready } →
            GapTaken r c f view s t ∧ t.ctx (other c) = s.ctx (other c) ∧
              timedBut (gapParts c view s ++ [.power, .engine] ++ postParts) s t)) ∧
  (∀ s : State, ¬ (s.sensor.power = .settling ∧ isDue s.now s.sensor.settle = true) → exec .settleTimerExpiry s = .next s) ∧
  ∀ (s : State) (tx : Transaction) (a v value : Half) (ok : Bool),
    s.sensor.port = some tx → tx.owner = .replay → tx.op = .write a v → s.powerForm → s.replayForm →
    mirrorWf s.sensor.mirror = true → a.toNat < 512 → (ok = false → isDue s.now (some tx.timer) = true) →
    ∃ t, exec (if ok then .sensorAck value else .ackTimeout) s = .next t ∧
      mirrorAt a.toNat t.sensor.mirror = (if ok then some { stale := false, value := v } else none) ∧
      (∀ b, b ≠ a.toNat → mirrorAt b t.sensor.mirror = mirrorAt b s.sensor.mirror) ∧
      (∀ p, nextStale s.sensor.replayPos s.sensor.mirror = some p → s.noFlushRecord →
        t.sensor.replayed = s.sensor.replayed + (if ok then 1 else 0) ∧
        t.sensor.failed = s.sensor.failed + (if ok then 0 else 1) ∧ t.sensor.replayPos = p.1 + 1 ∧
        t.sensor.port = some
          { owner := .replay, op := .write (BitVec.ofNat 16 p.1) p.2.value, timer := { started := s.now, duration := 2000 } } ∧
        timedBut [.mirror, .replay, .port] s t) ∧
      (∀ u, nextStale s.sensor.replayPos s.sensor.mirror = none → s.ring.setup = some u → s.noneWaits →
        ∀ view, view = { s.sensor with power := .ready, port := none } →
        ReadyReached u (s.sensor.replayed + if ok then 1 else 0) (s.sensor.failed + if ok then 0 else 1) s t ∧
          (s.inPhase .c0 .gap = false → s.inPhase .c1 .gap = false →
            (∀ j, s.engine.job = some j → j.work.address = none ∧ j.work ≠ .flush) → t.sensor.port = none) ∧
          (s.inPhase .c0 .gap = false → s.inPhase .c1 .gap = false → s.noFlushRecord →
            timedBut ([.power, .mirror, .engine, .port, .replay] ++ postParts) s t) ∧
          ∀ c f r, s.ctx c = some f → f.phase = .gap → s.inPhase (other c) .gap = false → s.request = some r →
            s.noFlushRecord → (∀ j, s.engine.job = some j → j.work.address = none) →
            GapTaken r c f view s t ∧ t.ctx (other c) = s.ctx (other c) ∧
              timedBut (gapParts c view s ++ [.power, .mirror, .engine, .port, .replay] ++ postParts) s t)

/-! ## Windows and the segment order -/

/-- Kept columns and lines and their places in the output image, for a window that Table 22 accepts (R63, R64). -/
def Obligations.KeptColumnsFillTheOutput : Prop :=
  ∀ (u : Setup) (windows : List WindowEntry) (n : Nat) (w : WindowDef), firstFailed (windowChecks u windows n w) = none →
    (∀ column, column ∈ w.keptColumns ↔ w.x.toNat ≤ column ∧ column - w.x.toNat < w.width.toNat ∧
      if w.mosaic then (column - w.x.toNat) % (2 * w.skipX.toNat) < 2 else (column - w.x.toNat) % w.skipX.toNat = 0) ∧
    w.keptColumns.length = w.width.toNat / w.skipX.toNat ∧ w.keptColumns.Pairwise (· < ·) ∧
    (∀ i column, w.keptColumns[i]? = some column →
      i = if w.mosaic then 2 * ((column - w.x.toNat) / (2 * w.skipX.toNat)) + (column - w.x.toNat) % 2
        else (column - w.x.toNat) / w.skipX.toNat) ∧
    (∀ line, w.keepsLine line = true ↔ w.y.toNat ≤ line ∧ line - w.y.toNat < w.height.toNat ∧
      if w.mosaic then (line - w.y.toNat) % (2 * w.skipY.toNat) < 2 else (line - w.y.toNat) % w.skipY.toNat = 0) ∧
    (∀ line, w.keepsLine line = true → w.outputRow line < w.height.toNat / w.skipY.toNat ∧
      w.outputRow line = if w.mosaic then 2 * ((line - w.y.toNat) / (2 * w.skipY.toNat)) + (line - w.y.toNat) % 2
        else (line - w.y.toNat) / w.skipY.toNat) ∧
    ∀ a b, w.keepsLine a = true → w.keepsLine b = true → a < b → w.outputRow a < w.outputRow b

/-- The Line Assembler puts pixel p of segment k at column 16k + the value at position p, so that every column receives exactly
one pixel (R67). -/
def Obligations.SegmentOrderPlacesEachPixel : Prop :=
  ∀ (order : List Nat) (columns : Nat) (pixels : List Nat), isOrder order = true → columns % 16 = 0 → pixels.length = columns →
    (assemble order columns pixels).length = columns ∧
      (∀ k p, 16 * k + p < columns → p < 16 →
        (assemble order columns pixels)[16 * k + order.getD p 0]? = pixels[16 * k + p]?) ∧
      (assemble order columns pixels).Perm pixels

/-- A slice of an accepted window is one output row: its size and offset, row by row inside the output image, its bytes the kept
pixels in column order as Table 25 stores them; and a line gives one slice for each window of the list that keeps it, in
window-list order (R65, R66, R70, R71). -/
def Obligations.SlicesFitTheirWindow : Prop :=
  (∀ (u : Setup) (windows : List WindowEntry) (n : Nat) (w : WindowDef) (c : CtxId) (position line : Nat) (raster : List Nat)
    (sl : Slice),
    firstFailed (windowChecks u windows n w) = none → w.keepsLine line = true →
    sl = sliceOf c position u.depth line raster w →
    sl.ctx = c ∧ sl.position = position ∧ sl.size = w.outWidth * w.bytesPerPixel u.depth ∧
      sl.offset = w.outputRow line * sl.size ∧ sl.offset + sl.size ≤ w.byteSize u.depth ∧
      w.byteSize u.depth ≤ 16777216 ∧
      ∀ i column, w.keptColumns[i]? = some column →
        (u.depth = 8 → sl.data[i]? = some (BitVec.ofNat 8 (raster.getD column 0))) ∧
        (u.depth ≠ 8 → w.format = .top8 →
          sl.data[i]? = some (BitVec.ofNat 8 (raster.getD column 0 / 2 ^ (u.depth - 8)))) ∧
        (u.depth ≠ 8 → w.format = .native →
          sl.data[2 * i]? = some (BitVec.ofNat 8 (raster.getD column 0)) ∧
            sl.data[2 * i + 1]? = some (BitVec.ofNat 8 (raster.getD column 0 / 256)))) ∧
  ∀ (windows : List WindowEntry) (c : CtxId) (depth line : Nat) (raster list : List Nat),
    (cutLine windows c depth line raster 0 list).map Slice.position =
        (List.range list.length).filter (fun p => (windowAt windows (list.getD p 0)).window.any (·.keepsLine line)) ∧
      ∀ sl ∈ cutLine windows c depth line raster 0 list,
        ∃ w, (windowAt windows (list.getD sl.position 0)).window = some w ∧ sl = sliceOf c sl.position depth line raster w

/-! ## Invariants of every step -/

/-- The queue, the cache, the staged list and the store keep their bounds (R10, R92, R100, R114), the Segment Order Table stays a
permutation (R67), and the Settings Mirror keeps its form with every sensor address in hand below 512 (R109, R111, R135). -/
def Obligations.StepKeepsListsAndTables : Prop :=
  ∀ s t : State, s.listsBounded → s.tablesForm → s.sensorForm → step s = .next t →
    t.listsBounded ∧ t.tablesForm ∧ t.sensorForm

/-- The interrupt line follows the signalling condition (R171), the sensor power enable, the settle timer and the replay follow
the power state (R123 to R125), a replay that is not under way has no position and no counts (log entry 17, DESIGN
CHOICE), and the hold of the TRIGGER filter runs while the pin differs from the filtered level (R185). -/
def Obligations.StepKeepsLineAndPower : Prop :=
  ∀ s t : State, s.lineFollows → s.powerForm → step s = .next t →
    t.lineFollows ∧ t.powerForm ∧ (s.replayForm → t.replayForm) ∧ (s.filterForm → t.filterForm)

/-- While a flush is in progress no Frame Context is in WAIT_START, LEAD, EXPOSING or READOUT (R33, R116), at most the front
staged entry is IN_PROGRESS, and a flush in progress has its WRITE on the port (R114, R117), in a part that at rest holds no
work, which is kept as well. The WRITE of a flush that a halt left behind brings the next generation too (R130; DEDUCED,
log entry 29). -/
def Obligations.StepKeepsFlushAndExposureApart : Prop :=
  ∀ s t : State, s.flushApart → step s = .next t → t.flushApart ∧ (s.flushForm → s.restForm → t.flushForm)

/-- The two Frame Contexts keep apart: R29 and what EXPOSE, STROBE and the receiver follow from it (R44, R76); and while a stop mode
is applied the active request has an end cause (R22, Table 11). -/
def Obligations.StepKeepsFramesApart : Prop :=
  ∀ s t : State, step s = .next t → (s.framesApart → t.framesApart) ∧ (s.stopForm → t.stopForm)

/-- Completions written and not yet freed, plus slots reserved, never exceed the Completion Ring size less one (R164); the
second hypothesis says that a part at rest holds no work, and is kept as well. -/
def Obligations.StepNeverOverrunsTheCompletionRing : Prop :=
  ∀ s t : State, s.creditForm → s.restForm → step s = .next t → t.creditForm ∧ t.restForm

/-- Each reference count is the number of valid requests in the Capture Queue that name the window (R8), and in DISABLED, STARTING
and HALTED no block holds work (R173). -/
def Obligations.StepKeepsReferenceCounts : Prop :=
  ∀ s t : State, s.refsCounted → s.restForm → step s = .next t → t.refsCounted ∧ t.restForm
end

