-- ==== Sys2Proof/Laws/State.lean ====
section
/-! SUPPORT. Lemmas that are true by unfolding: what each named state update leaves in the fields it names, and how frames
compose. -/

set_option Elab.async false

namespace Sys2Proof.Machine

/-! ## Frames compose -/

theorem unchangedBut.refl (ps : List Part) (s : State) : unchangedBut ps s s := by
  intro p _; cases p <;> simp [Part.same]

theorem Part.same_trans {p : Part} {s t u : State} (h : p.same s t) (k : p.same t u) : p.same s u := by
  cases p <;> simp_all [Part.same]

theorem unchangedBut.trans {ps : List Part} {s t u : State} (h : unchangedBut ps s t) (k : unchangedBut ps t u) :
    unchangedBut ps s u := fun p hp => Part.same_trans (h p hp) (k p hp)

theorem unchangedBut.mono {ps qs : List Part} {s t : State} (h : unchangedBut ps s t) (hs : ∀ p, p ∈ ps → p ∈ qs) :
    unchangedBut qs s t := fun p hp => h p fun hq => hp (hs p hq)

/-- The same, with the inclusion decided by evaluation. -/
theorem unchangedBut.widen {ps : List Part} {s t : State} (h : unchangedBut ps s t) (qs : List Part)
    (hs : ps.all (fun p => qs.contains p) = true := by decide) : unchangedBut qs s t :=
  h.mono fun p hp => by simpa using List.all_eq_true.mp hs p hp

/-- A piece outside the list, by evaluation. -/
theorem unchangedBut.get {ps : List Part} {s t : State} (h : unchangedBut ps s t) (p : Part)
    (hp : ps.contains p = false := by decide) : p.same s t := h p (by simpa using hp)

theorem unchangedBut.ite {ps : List Part} {s t u : State} {c : Prop} [Decidable c] (h : unchangedBut ps s t)
    (k : unchangedBut ps s u) : unchangedBut ps s (if c then t else u) := by split <;> assumption

/-! ## Contexts -/

@[simp] theorem setCtx_ctx_same (s : State) (c : CtxId) (f : Option Frame) : (s.setCtx c f).ctx c = f := by
  cases c <;> rfl

@[simp] theorem setCtx_ctx_other (s : State) (c : CtxId) (f : Option Frame) :
    (s.setCtx c f).ctx (other c) = s.ctx (other c) := by cases c <;> rfl

@[simp] theorem other_other (c : CtxId) : other (other c) = c := by cases c <;> rfl

theorem other_ne (c : CtxId) : other c ≠ c := by cases c <;> decide

@[simp] theorem updCtx_ctx_same (s : State) (c : CtxId) (g : Frame → Frame) :
    (s.updCtx c g).ctx c = (s.ctx c).map g := by
  unfold State.updCtx; split <;> simp_all

@[simp] theorem updCtx_ctx_other (s : State) (c : CtxId) (g : Frame → Frame) :
    (s.updCtx c g).ctx (other c) = s.ctx (other c) := by
  unfold State.updCtx; split <;> simp

@[simp] theorem setCtx_sched (s : State) (c : CtxId) (f : Option Frame) : (s.setCtx c f).sched = s.sched := by
  cases c <;> rfl
@[simp] theorem setCtx_link (s : State) (c : CtxId) (f : Option Frame) : (s.setCtx c f).link = s.link := by
  cases c <;> rfl
@[simp] theorem setCtx_ring (s : State) (c : CtxId) (f : Option Frame) : (s.setCtx c f).ring = s.ring := by
  cases c <;> rfl
@[simp] theorem setCtx_engine (s : State) (c : CtxId) (f : Option Frame) : (s.setCtx c f).engine = s.engine := by
  cases c <;> rfl
@[simp] theorem setCtx_recv (s : State) (c : CtxId) (f : Option Frame) : (s.setCtx c f).recv = s.recv := by
  cases c <;> rfl
@[simp] theorem setCtx_cutter (s : State) (c : CtxId) (f : Option Frame) : (s.setCtx c f).cutter = s.cutter := by
  cases c <;> rfl
@[simp] theorem setCtx_store (s : State) (c : CtxId) (f : Option Frame) : (s.setCtx c f).store = s.store := by
  cases c <;> rfl
@[simp] theorem setCtx_bufs (s : State) (c : CtxId) (f : Option Frame) : (s.setCtx c f).bufs = s.bufs := by
  cases c <;> rfl
@[simp] theorem setCtx_sensor (s : State) (c : CtxId) (f : Option Frame) : (s.setCtx c f).sensor = s.sensor := by
  cases c <;> rfl
@[simp] theorem setCtx_cpl (s : State) (c : CtxId) (f : Option Frame) : (s.setCtx c f).cpl = s.cpl := by
  cases c <;> rfl
@[simp] theorem setCtx_now (s : State) (c : CtxId) (f : Option Frame) : (s.setCtx c f).now = s.now := by
  cases c <;> rfl
@[simp] theorem setCtx_free (s : State) (c : CtxId) (f : Option Frame) : (s.setCtx c f).free = s.free := by
  cases c <;> rfl
@[simp] theorem setCtx_pending (s : State) (c : CtxId) (f : Option Frame) : (s.setCtx c f).pending = s.pending := by
  cases c <;> rfl

/-! ## What was issued -/

@[simp] theorem issue_issued (w : LinkWrite) (s : State) : (s.issue w).link.issued = s.link.issued ++ [w] := rfl

/-- A raise puts its interrupt message alone on the Host Link (R171). -/
theorem raise_issued (c : Causes) (s : State) : (s.raise c).link.issued = s.link.issued ++ messageSent s (s.raise c) := by
  have key : ∀ (a b d : Bool) (l : List LinkWrite), (if (a && !b && d) = true then l ++ [.message] else l) =
      l ++ (if a = true ∧ b = false ∧ d = true then [LinkWrite.message] else []) := by
    intro a b d l; cases a <;> cases b <;> cases d <;> simp
  exact key s.link.msi s.signalling (Machine.signalling (s.cpl.cause.or c) s.cpl.mask) s.link.issued

end Sys2Proof.Machine
end

