-- ==== Sys2Proof/Laws/Frames.lean ====
section
/-! SUPPORT. One frame lemma per shared operation: the pieces of the state that it can change. -/

set_option Elab.async false

namespace Sys2Proof.Machine

/-! ## Causes, rings and completions -/


theorem issue_frame (w : LinkWrite) (s : State) : unchangedBut [.issued] s (s.issue w) := by
  unfold State.issue
  intro p hp; cases p <;> first | rfl | exact absurd (by decide) hp

theorem setCauses_frame (c m : Causes) (s : State) : unchangedBut [.cause, .mask, .line, .issued] s (s.setCauses c m) := by
  unfold State.setCauses
  intro p hp; cases p <;> first | rfl | exact absurd (by decide) hp

theorem raise_frame (c : Causes) (s : State) : unchangedBut [.cause, .line, .issued] s (s.raise c) := by
  intro p hp
  by_cases hm : p = .mask
  · subst hm; rfl
  · exact setCauses_frame _ _ s p (by simp_all)


theorem writeProgress_frame (s : State) : unchangedBut [.issued] s (s.writeProgress) := by
  unfold State.writeProgress State.issue
  (repeat' split) <;> intro p hp <;> cases p <;> first | rfl | exact absurd (by decide) hp

/-- The pieces a read of a ring changes. -/
def ringPart : RingId → Part
  | .control => .ctlRing
  | .capture => .capRing
  | .buffer => .bufRing

theorem advanceRing_frame (r : RingId) (s : State) : unchangedBut [ringPart r, .issued] s (s.advanceRing r) := by
  cases r <;> refine .trans (t := { s with ring := _ }) ?_ ((writeProgress_frame _).widen _) <;> intro p hp <;> cases p <;>
    first | rfl | exact absurd (by decide) hp


theorem setCtx_frame (c : CtxId) (f : Option Frame) (s : State) : unchangedBut [.contexts] s (s.setCtx c f) := by
  unfold State.setCtx
  (repeat' split) <;> intro p hp <;> cases p <;> first | rfl | exact absurd (by decide) hp

theorem set_lines (s : State) (e b : Bool) :
    unchangedBut [.lines] s { s with seq := { s.seq with expose := e, strobe := b } } := by
  intro p hp; cases p <;> first | rfl | exact absurd (by decide) hp

theorem set_missed (s : State) (n : Nat) : unchangedBut [.missed] s { s with seq := { s.seq with missed := n } } := by
  intro p hp; cases p <;> first | rfl | exact absurd (by decide) hp

theorem set_latch (s : State) (b : Bool) : unchangedBut [.latch] s { s with seq := { s.seq with latch := b } } := by
  intro p hp; cases p <;> first | rfl | exact absurd (by decide) hp

theorem updCtx_frame (c : CtxId) (g : Frame → Frame) (s : State) : unchangedBut [.contexts] s (s.updCtx c g) := by
  unfold State.updCtx; split
  · exact .refl _ _
  · exact setCtx_frame _ _ _


theorem writeSlots_frame (u : Setup) (c : Completion) (s : State) : unchangedBut [.slots, .issued] s (s.writeSlots u c) := by
  unfold State.writeSlots State.issue
  (repeat' split) <;> intro p hp <;> cases p <;> first | rfl | exact absurd (by decide) hp

theorem coalesce_frame (u : Setup) (s : State) :
    unchangedBut [.coalescing, .cause, .line, .issued] s (s.coalesce u) := by
  unfold State.coalesce; split
  · refine .trans (t := { s with cpl := _ }) ?_ ((raise_frame _ _).widen _)
    intro p hp; cases p <;> first | rfl | exact absurd (by decide) hp
  · intro p hp; cases p <;> first | rfl | exact absurd (by decide) hp

theorem handOver_frame (c : Completion) (s : State) : unchangedBut postParts s (s.handOver c) := by
  unfold State.handOver; split
  · exact .refl _ _
  · exact ((writeSlots_frame _ _ _).widen _).trans ((coalesce_frame _ _).widen _)


theorem captureTest_frame (s : State) : unchangedBut [.capCredit, .capRing] s (s.captureTest) := by
  unfold State.captureTest
  (repeat' split) <;> intro p hp <;> cases p <;> first | rfl | exact absurd (by decide) hp

theorem engineTest_frame (s : State) : unchangedBut [.engine, .ctlRing] s (s.engineTest) := by
  unfold State.engineTest
  (repeat' split) <;> intro p hp <;> cases p <;> first | rfl | exact absurd (by decide) hp

theorem bufferTest_frame (s : State) : unchangedBut [.bufRing] s (s.bufferTest) := by
  unfold State.bufferTest
  (repeat' split) <;> intro p hp <;> cases p <;> first | rfl | exact absurd (by decide) hp

theorem finishRecord_frame (r : ControlResult) (s : State) : unchangedBut recordParts s (s.finishRecord r) := by
  unfold State.finishRecord
  refine ((handOver_frame (.control r) s).widen _).trans (.trans ?_ ((engineTest_frame _).widen _))
  intro p hp; cases p <;> first | rfl | exact absurd (by decide) hp

/-! ## Contexts and the active request -/


theorem updHead_frame (g : Entry → Entry) (s : State) : unchangedBut [.queue] s (s.updHead g) := by
  unfold State.updHead
  (repeat' split) <;> intro p hp <;> cases p <;> first | rfl | exact absurd (by decide) hp

theorem noteClose_frame (o : FrameOutcome) (s : State) : unchangedBut [.stop] s (s.noteClose o) := by
  unfold State.noteClose
  intro p hp; cases p <;> first | rfl | exact absurd (by decide) hp

theorem closeFrame_frame (c : CtxId) (o : FrameOutcome) (s : State) :
    unchangedBut [.contexts, .stop] s (s.closeFrame c o) := by
  unfold State.closeFrame; split
  · exact .refl _ _
  · exact ((setCtx_frame _ _ _).widen _).trans ((noteClose_frame _ _).widen _)


theorem releaseLines_frame (s : State) : unchangedBut [.lines] s (s.releaseLines) := by
  unfold State.releaseLines
  intro p hp; cases p <;> first | rfl | exact absurd (by decide) hp

theorem expect_frame (c : CtxId) (s : State) : unchangedBut [.receiver] s (s.expect c) := by
  unfold State.expect
  intro p hp; cases p <;> first | rfl | exact absurd (by decide) hp

theorem enterExposing_frame (r : CaptureRequest) (c : CtxId) (s : State) :
    unchangedBut [.contexts, .lines] s (s.enterExposing r c) := by
  unfold State.enterExposing
  exact ((updCtx_frame _ _ _).widen _).trans ((set_lines _ _ _).widen _)

theorem startCondition_frame (r : CaptureRequest) (c : CtxId) (s : State) :
    unchangedBut [.contexts, .lines] s (s.startCondition r c) := by
  unfold State.startCondition
  dsimp only
  split
  · exact ((updCtx_frame _ _ _).widen _).trans (((updCtx_frame _ _ _).widen _).trans ((set_lines _ _ _).widen _))
  · exact ((updCtx_frame _ _ _).widen _).trans (enterExposing_frame _ _ _)

theorem enterReadout_frame (c : CtxId) (s : State) : unchangedBut [.contexts, .receiver] s (s.enterReadout c) := by
  unfold State.enterReadout
  exact ((updCtx_frame _ _ _).widen _).trans ((expect_frame _ _).widen _)

theorem exposureEnd_frame (c : CtxId) (s : State) :
    unchangedBut [.contexts, .lines, .receiver] s (s.exposureEnd c) := by
  unfold State.exposureEnd
  exact ((releaseLines_frame _).widen _).trans
    (((updCtx_frame _ _ _).widen _).trans ((enterReadout_frame _ _).widen _))

theorem exposureWouldEnd_frame (c : CtxId) (s : State) :
    unchangedBut [.contexts, .lines, .receiver] s (s.exposureWouldEnd c) := by
  unfold State.exposureWouldEnd; split
  · exact (updCtx_frame _ _ _).widen _
  · exact exposureEnd_frame _ _

/-- What entry to WAIT_START may change. -/
def waitStartParts : List Part := [.contexts, .lines, .queue, .missed, .latch]

theorem enterWaitStart_frame (r : CaptureRequest) (c : CtxId) (s : State) :
    unchangedBut waitStartParts s (s.enterWaitStart r c) := by
  let s1 := s.updCtx c fun f =>
    { f with
      phase := .waitStart, generation := some s.sensor.generation, missed := satAdd f.missed s.seq.missed }
  let s2 := s1.updHead fun e => { e with missed := satAdd e.missed s.seq.missed }
  let s3 : State := { s2 with seq := { s2.seq with missed := 0 } }
  have h : unchangedBut waitStartParts s s3 :=
    ((updCtx_frame _ _ s).widen _).trans (((updHead_frame _ s1).widen _).trans ((set_missed s2 0).widen _))
  have e : s.enterWaitStart r c =
      (if r.source = .software then s3.startCondition r c
      else if s3.seq.latch = true then
        (State.updCtx c (fun f => { f with flags := { f.flags with latchedStart := true } })
          { s3 with seq := { s3.seq with latch := false } }).startCondition r c
      else if r.timeout ≠ 0 then
        s3.updCtx c fun f => { f with trigTimer := some (Timer.start s3.now (millis r.timeout)) }
      else s3) := rfl
  rw [e]
  refine h.trans ?_
  clear_value s3
  refine .ite ((startCondition_frame _ _ _).widen _) (.ite ?_ (.ite ((updCtx_frame _ _ _).widen _) (.refl _ _)))
  exact ((set_latch s3 false).widen _).trans
    (((updCtx_frame _ _ _).widen _).trans ((startCondition_frame _ _ _).widen _))

/-- What an evaluation in GAP may change. -/
def gapEvalParts : List Part := .stop :: .waits :: waitStartParts

theorem gapAdvance_frame (c : CtxId) (s : State) : unchangedBut (.stop :: waitStartParts) s (s.gapAdvance c) := by
  unfold State.gapAdvance
  split
  · exact .refl _ _
  · split
    · split
      · exact (closeFrame_frame _ _ _).widen _
      · exact .refl _ _
      · exact .refl _ _
      · split
        · exact (enterWaitStart_frame _ _ _).widen _
        · exact .refl _ _
    · exact .refl _ _

theorem gapEvaluate_frame (c : CtxId) (s : State) : unchangedBut gapEvalParts s (s.gapEvaluate c) := by
  unfold State.gapEvaluate
  refine ((gapAdvance_frame c s).widen _).trans ?_
  dsimp only
  split
  · intro p hp; cases p <;> first | rfl | exact absurd (by decide) hp
  · exact .refl _ _

theorem gapEvaluateAll_frame (s : State) : unchangedBut gapEvalParts s s.gapEvaluateAll :=
  (gapEvaluate_frame _ _).trans (gapEvaluate_frame _ _)

/-- What the end of a readout may change. -/
def readoutEndParts : List Part := .receiver :: gapEvalParts

theorem readoutEnd_frame (c : CtxId) (s : State) : unchangedBut readoutEndParts s (s.readoutEnd c) := by
  unfold State.readoutEnd
  split
  · exact .refl _ _
  · split
    · rename_i f _ _
      refine ((closeFrame_frame c f.readoutOutcome s).widen _).trans ?_
      dsimp only
      split
      · exact (exposureEnd_frame _ _).widen _
      · exact (gapEvaluate_frame _ _).widen _
    · exact .refl _ _


theorem earlyTrigger_frame (r : CaptureRequest) (s : State) : unchangedBut [.latch, .missed] s (s.earlyTrigger r) := by
  unfold State.earlyTrigger
  (repeat' split) <;> intro p hp <;> cases p <;> first | rfl | exact absurd (by decide) hp

theorem startEvent_frame (r : CaptureRequest) (s : State) :
    unchangedBut [.contexts, .lines, .latch, .missed] s (s.startEvent r) := by
  unfold State.startEvent
  split
  · exact (startCondition_frame _ _ _).widen _
  · split
    · exact (startCondition_frame _ _ _).widen _
    · exact (earlyTrigger_frame _ _).widen _

theorem endEventAt_frame (c : CtxId) (s : State) : unchangedBut [.contexts, .lines, .receiver] s (s.endEventAt c) := by
  unfold State.endEventAt
  split
  · exact .refl _ _
  · split
    · exact (updCtx_frame _ _ _).widen _
    · split
      · exact exposureWouldEnd_frame _ _
      · exact .refl _ _
    · exact .refl _ _

theorem endEvent_frame (s : State) : unchangedBut [.contexts, .lines, .receiver] s s.endEvent := by
  unfold State.endEvent; split <;> exact endEventAt_frame _ _

theorem gracefulAt_frame (c : CtxId) (s : State) : unchangedBut [.contexts, .stop] s (s.gracefulAt c) := by
  unfold State.gracefulAt; split
  · exact closeFrame_frame _ _ _
  · exact .refl _ _

/-- What a stop mode applied to the active request may change. -/
def stopParts : List Part := [.contexts, .stop, .lines, .receiver]

theorem abortAt_frame (c : CtxId) (s : State) : unchangedBut stopParts s (s.abortAt c) := by
  unfold State.abortAt
  split
  · exact .refl _ _
  · split
    · exact (closeFrame_frame _ _ _).widen _
    · exact (closeFrame_frame _ _ _).widen _
    · exact (closeFrame_frame _ _ _).widen _
    · refine .trans ?_ ((closeFrame_frame _ _ _).widen _)
      intro p hp; cases p <;> first | rfl | exact absurd (by decide) hp
    · refine ((releaseLines_frame s).widen _).trans (.trans (t := s.releaseLines.updCtx c fun f =>
        { f.recordActual s.now with
          expTimer := none, outcome := some (f.outcome.getD .aborted), flags := { f.flags with discard := true } })
        ((updCtx_frame _ _ _).widen _) ?_)
      dsimp only
      split
      · exact (updCtx_frame _ _ _).widen _
      · exact (enterReadout_frame _ _).widen _
    · exact (updCtx_frame _ _ _).widen _
    · exact .refl _ _

theorem applyStop_frame (k : StopKind) (s : State) : unchangedBut stopParts s (s.applyStop k) := by
  unfold State.applyStop
  refine .trans (t := { s with
      sched :=
        { s.sched with
          stopMode := s.sched.stopMode.apply k, endCause := applyEndCause s.sched.stopMode k s.sched.endCause } }) ?_ ?_
  · intro p hp; cases p <;> first | rfl | exact absurd (by decide) hp
  · dsimp only
    split
    · exact .refl _ _
    · cases k
      · exact ((gracefulAt_frame _ _).widen _).trans ((gracefulAt_frame _ _).widen _)
      · exact (abortAt_frame _ _).trans (abortAt_frame _ _)


theorem recordMark_frame (s : State) : unchangedBut [.flushMark] s (s.recordMark) := by
  unfold State.recordMark
  intro p hp; cases p <;> first | rfl | exact absurd (by decide) hp

theorem stopAllRequests_frame (k : StopKind) (s : State) :
    unchangedBut (.flushMark :: .queue :: stopParts) s (s.stopAllRequests k) := by
  unfold State.stopAllRequests
  refine ((recordMark_frame s).widen _).trans ?_
  dsimp only
  split
  · exact .refl _ _
  · rename_i e rest _
    refine .trans (t := { s.recordMark with
      sched := { s.recordMark.sched with queue := e :: rest.map Entry.flush } }) ?_ ?_
    · intro p hp; cases p <;> first | rfl | exact absurd (by decide) hp
    · split
      · exact (applyStop_frame _ _).widen _
      · exact .refl _ _

theorem stopByTag_frame (tag : Word) (k : StopKind) (s t : State) (h : s.stopByTag tag k = some t) :
    unchangedBut (.queue :: stopParts) s t := by
  unfold State.stopByTag at h
  split at h
  · cases h
  · split at h
    · cases h; exact (applyStop_frame _ _).widen _
    · rename_i e rest _ _
      cases hq : stopQueued tag rest with
      | none => simp [hq] at h
      | some q =>
        simp only [hq, Option.map_some, Option.some.injEq] at h
        subst h
        intro p hp; cases p <;> first | rfl | exact absurd (by decide) hp


theorem tidyInterval_frame (s : State) : unchangedBut [.interval] s (s.tidyInterval) := by
  unfold State.tidyInterval
  (repeat' split) <;> intro p hp <;> cases p <;> first | rfl | exact absurd (by decide) hp

theorem firstTick_frame (r : CaptureRequest) (s : State) :
    unchangedBut [.interval, .latch, .missed] s (s.firstTick r) := by
  unfold State.firstTick
  refine .trans ?_ ((earlyTrigger_frame r _).widen _)
  intro p hp; cases p <;> first | rfl | exact absurd (by decide) hp

theorem becomeActive_frame (s : State) : unchangedBut [.stop, .interval, .latch, .missed] s (s.becomeActive) := by
  unfold State.becomeActive
  dsimp only
  (repeat' split)
  case h_2.isTrue =>
    refine .trans (t := { s with
      sched := { s.sched with stopMode := .none, endCause := none, interval := none }
      seq := { s.seq with latch := false, missed := 0 } }) ?_ ((firstTick_frame _ _).widen _)
    intro p hp; cases p <;> first | rfl | exact absurd (by decide) hp
  all_goals intro p hp; cases p <;> first | rfl | exact absurd (by decide) hp

/-! ## The Sensor Link -/


theorem recordWrite_frame (a v : Half) (s : State) : unchangedBut [.mirror] s (s.recordWrite a v) := by
  unfold State.recordWrite
  intro p hp; cases p <;> first | rfl | exact absurd (by decide) hp

theorem startTransaction_frame (o : PortOwner) (op : PortOp) (s : State) : unchangedBut [.port] s (s.startTransaction o op) := by
  unfold State.startTransaction
  intro p hp; cases p <;> first | rfl | exact absurd (by decide) hp

theorem freePort_frame (s : State) : unchangedBut [.port] s (s.freePort) := by
  unfold State.freePort
  intro p hp; cases p <;> first | rfl | exact absurd (by decide) hp

theorem writeFront_frame (s : State) : unchangedBut [.staged, .flush, .port] s (s.writeFront) := by
  unfold State.writeFront State.startTransaction
  (repeat' split) <;> intro p hp <;> cases p <;> first | rfl | exact absurd (by decide) hp

theorem closeFlush_frame (s : State) : unchangedBut [.flush, .generation] s (s.closeFlush) := by
  unfold State.closeFlush
  (repeat' split) <;> intro p hp <;> cases p <;> first | rfl | exact absurd (by decide) hp

theorem applyPower_frame (b : Bool) (s : State) : unchangedBut [.mirror, .power, .replay] s (s.applyPower b) := by
  unfold State.applyPower
  intro p hp; cases p <;> first | rfl | exact absurd (by decide) hp

theorem receiverOff_frame (s : State) : unchangedBut [.receiver] s (s.receiverOff) := by
  unfold State.receiverOff
  (repeat' split) <;> intro p hp <;> cases p <;> first | rfl | exact absurd (by decide) hp

theorem enterDisabled_frame (s : State) : unchangedBut [.partState, .tails] s (s.enterDisabled) := by
  unfold State.enterDisabled
  intro p hp; cases p <;> first | rfl | exact absurd (by decide) hp

theorem engineDrain_frame (s : State) : unchangedBut [.engine] s (s.engineDrain) := by
  unfold State.engineDrain
  (repeat' split) <;> intro p hp <;> cases p <;> first | rfl | exact absurd (by decide) hp

theorem cutOffWrite_frame (s : State) : unchangedBut [.freeCount, .issued] s s.cutOffWrite := by
  unfold State.cutOffWrite
  split
  · exact .refl _ _
  · refine .trans (t := { s with free := s.free + 1 }) ?_ ?_
    · intro p hp; cases p <;> first | rfl | exact absurd (by decide) hp
    · dsimp only
      split
      · exact .refl _ _
      · exact .ite (.refl _ _) ((issue_frame _ _).widen _)

theorem beginFlush_frame (s : State) : unchangedBut [.staged, .flush, .port] s s.beginFlush := by
  unfold State.beginFlush
  refine .trans ?_ (writeFront_frame _)
  intro p hp; cases p <;> first | rfl | exact absurd (by decide) hp

theorem foldHandOver_frame (l : List Staged) (s : State) (r : Staged → Completion) :
    unchangedBut postParts s (l.foldl (fun s e => s.handOver (r e)) s) := by
  induction l generalizing s with
  | nil => exact .refl _ _
  | cons e l ih => exact (handOver_frame _ s).trans (ih _)

theorem discardWaiting_frame (s : State) : unchangedBut (.staged :: postParts) s s.discardWaiting := by
  unfold State.discardWaiting
  refine .trans ?_ ((foldHandOver_frame _ _ fun e => .control (stagedResult e .discarded none)).widen _)
  intro p hp; cases p <;> first | rfl | exact absurd (by decide) hp

/-- What a record that goes on or finishes at the Sensor Link may change. -/
def jobParts : List Part := .waits :: recordParts

theorem checkFlushRecord_frame (s : State) : unchangedBut jobParts s s.checkFlushRecord := by
  unfold State.checkFlushRecord
  split
  · split
    · exact (finishRecord_frame _ _).widen _
    · split
      · intro p hp; cases p <;> first | rfl | exact absurd (by decide) hp
      · exact .refl _ _
  · exact .refl _ _

theorem readyForRecord_frame (s : State) : unchangedBut jobParts s s.readyForRecord := by
  unfold State.readyForRecord
  split
  · exact (finishRecord_frame _ _).widen _
  · exact (finishRecord_frame _ _).widen _
  · intro p hp; cases p <;> first | rfl | exact absurd (by decide) hp
  · intro p hp; cases p <;> first | rfl | exact absurd (by decide) hp
  · exact .refl _ _
  · exact .refl _ _

theorem forgetReplay_frame (s : State) : unchangedBut [.replay] s s.forgetReplay := by
  intro p hp; cases p <;> first | rfl | exact absurd (by decide) hp

/-- What the power state becoming READY may change. -/
def readyParts : List Part := .power :: .replay :: (gapEvalParts ++ recordParts)

theorem becomeReady_frame (s : State) : unchangedBut readyParts s s.becomeReady := by
  unfold State.becomeReady
  refine .trans ?_ (((gapEvaluateAll_frame _).widen _).trans
    (((readyForRecord_frame _).widen _).trans ((forgetReplay_frame _).widen _)))
  intro p hp; cases p <;> first | rfl | exact absurd (by decide) hp

/-- What a replay's next step may change. -/
def replayParts : List Part := .port :: readyParts

theorem replayNext_frame (s : State) : unchangedBut replayParts s s.replayNext := by
  unfold State.replayNext
  split
  · refine .trans (t := { s with sensor := _ }) ?_ ((startTransaction_frame _ _ _).widen _)
    intro p hp
    cases p <;> first | rfl | exact absurd (by decide) hp
  · exact ((freePort_frame _).widen _).trans ((becomeReady_frame _).widen _)

theorem grantReplay_frame (s : State) : unchangedBut replayParts s s.grantReplay := by
  unfold State.grantReplay
  split
  · refine .trans (t := { s with sensor := _ }) ?_ (replayNext_frame _)
    intro p hp; cases p <;> first | rfl | exact absurd (by decide) hp
  · exact .refl _ _

/-- What a grant of the port to the flush may change. -/
def flushParts : List Part := .staged :: .flush :: .port :: (gapEvalParts ++ recordParts)

theorem grantFlush_frame (s : State) : unchangedBut flushParts s s.grantFlush := by
  unfold State.grantFlush
  split
  · refine .trans (t := { s with sensor := { s.sensor with flushWaits := false } }) ?_ ?_
    · intro p hp; cases p <;> first | rfl | exact absurd (by decide) hp
    · dsimp only
      split
      · exact (beginFlush_frame _).widen _
      · exact ((gapAdvance_frame _ _).widen _).trans
          (((gapAdvance_frame _ _).widen _).trans ((checkFlushRecord_frame _).widen _))
  · exact .refl _ _

theorem grantEngine_frame (s : State) : unchangedBut [.waits, .port] s s.grantEngine := by
  unfold State.grantEngine
  split
  · refine .trans (t := { s with sensor := { s.sensor with engineWaits := false } }) ?_ ?_
    · intro p hp; cases p <;> first | rfl | exact absurd (by decide) hp
    · dsimp only
      split
      · exact (startTransaction_frame _ _ _).widen _
      · exact (startTransaction_frame _ _ _).widen _
      · exact .refl _ _
  · exact .refl _ _

/-- What the port arbiter may change. -/
def arbitrateParts : List Part := .replay :: .power :: flushParts

theorem arbitrate_frame (s : State) : unchangedBut arbitrateParts s s.arbitrate :=
  ((grantReplay_frame _).widen _).trans (((grantFlush_frame _).widen _).trans ((grantEngine_frame _).widen _))

/-- What follows a change elsewhere may change. -/
def followParts : List Part := .interval :: arbitrateParts

theorem follow_frame (s : State) : unchangedBut followParts s s.follow :=
  ((checkFlushRecord_frame _).widen _).trans (((arbitrate_frame _).widen _).trans ((tidyInterval_frame _).widen _))

theorem endFlush_frame (s : State) : unchangedBut (.flush :: .generation :: .port :: gapEvalParts) s s.endFlush :=
  ((closeFlush_frame _).widen _).trans (((freePort_frame _).widen _).trans ((gapEvaluateAll_frame _).widen _))

/-- What the end of a transaction may change. -/
def transactionParts : List Part := .mirror :: .generation :: followParts

theorem replayWritten_frame (ok : Bool) (a v : Half) (s : State) :
    unchangedBut transactionParts s (s.replayWritten ok a v) := by
  unfold State.replayWritten
  split
  · refine ((recordWrite_frame a v s).widen _).trans (.trans ?_ ((replayNext_frame _).widen _))
    intro p hp; cases p <;> first | rfl | exact absurd (by decide) hp
  · refine .trans ?_ ((replayNext_frame _).widen _)
    intro p hp; cases p <;> first | rfl | exact absurd (by decide) hp

theorem entryWritten_frame (ok : Bool) (a v : Half) (s : State) :
    unchangedBut transactionParts s (s.entryWritten ok a v) := by
  have h : unchangedBut transactionParts s (if ok then s.recordWrite a v else s) :=
    .ite ((recordWrite_frame a v s).widen _) (.refl _ _)
  have hEnd : ∀ s : State, unchangedBut transactionParts s s.endFlush := fun s => (endFlush_frame s).widen _
  unfold State.entryWritten
  refine h.trans ?_
  generalize (if ok then s.recordWrite a v else s) = s
  dsimp only
  split
  · exact hEnd s
  · rename_i e rest _
    split
    · refine .trans (t := { s with sensor := { s.sensor with staged := rest } }) ?_
        (((handOver_frame _ _).widen _).trans (.ite (hEnd _) ((writeFront_frame _).widen _)))
      intro p hp; cases p <;> first | rfl | exact absurd (by decide) hp
    · exact hEnd s

theorem recordTransacted_frame (ok : Bool) (op : PortOp) (v : Half) (s : State) :
    unchangedBut (.port :: .mirror :: recordParts) s (s.recordTransacted ok op v) := by
  unfold State.recordTransacted
  refine ((freePort_frame s).widen _).trans ?_
  dsimp only
  split
  · exact .refl _ _
  · split
    · exact .trans (.ite ((recordWrite_frame _ _ _).widen _) (.refl _ _)) ((finishRecord_frame _ _).widen _)
    · exact (finishRecord_frame _ _).widen _

theorem clearedTransacted_frame (ok : Bool) (op : PortOp) (s : State) :
    unchangedBut [.port, .mirror] s (s.clearedTransacted ok op) := by
  unfold State.clearedTransacted
  refine ((freePort_frame s).widen _).trans ?_
  dsimp only
  split
  · exact .ite ((recordWrite_frame _ _ _).widen _) (.refl _ _)
  · exact .refl _ _

theorem pinChanges_frame (level : Level) (s : State) : unchangedBut [.trigger] s (s.pinChanges level) := by
  unfold State.pinChanges
  split
  · exact .refl _ _
  · intro p hp; cases p <;> first | rfl | exact absurd (by decide) hp

theorem closeLeftFlush_frame (s : State) : unchangedBut [.generation] s s.closeLeftFlush := by
  unfold State.closeLeftFlush
  split
  · intro p hp; cases p <;> first | rfl | exact absurd (by decide) hp
  · exact .refl _ _

theorem leftFlushWritten_frame (ok : Bool) (a v : Half) (s : State) :
    unchangedBut [.generation, .port, .mirror] s (s.leftFlushWritten ok a v) := by
  unfold State.leftFlushWritten
  exact .trans (.ite ((recordWrite_frame _ _ _).widen _) (.refl _ _))
    (((closeLeftFlush_frame _).widen _).trans ((freePort_frame _).widen _))

theorem transactionEnds_frame (ok : Bool) (v : Half) (s : State) :
    unchangedBut transactionParts s (s.transactionEnds ok v) := by
  unfold State.transactionEnds
  split
  · exact .refl _ _
  · split
    · exact (replayWritten_frame _ _ _ _).trans ((follow_frame _).widen _)
    · exact (entryWritten_frame _ _ _ _).trans ((follow_frame _).widen _)
    · exact ((recordTransacted_frame _ _ _ _).widen _).trans ((follow_frame _).widen _)
    · exact ((clearedTransacted_frame _ _ _).widen _).trans ((follow_frame _).widen _)
    · exact ((leftFlushWritten_frame _ _ _ _).widen _).trans ((follow_frame _).widen _)
    · exact ((freePort_frame _).widen _).trans ((follow_frame _).widen _)

theorem powerOffAt_frame (c : CtxId) (s : State) : unchangedBut [.contexts, .stop, .lines] s (s.powerOffAt c) := by
  unfold State.powerOffAt
  split
  · exact .refl _ _
  · split
    · exact .refl _ _
    · exact .refl _ _
    · exact (closeFrame_frame _ _ _).widen _
    · exact (closeFrame_frame _ _ _).widen _
    · refine .trans ?_ ((closeFrame_frame _ _ _).widen _)
      intro p hp; cases p <;> first | rfl | exact absurd (by decide) hp
    · exact ((releaseLines_frame s).widen _).trans
        (((updCtx_frame _ _ _).widen _).trans ((closeFrame_frame _ _ _).widen _))
    · exact (closeFrame_frame _ _ _).widen _

/-- What the power-off notice may change. -/
def noticeParts : List Part := [.contexts, .stop, .lines, .receiver, .freeCount]

theorem powerOffNotice_frame (s : State) : unchangedBut noticeParts s s.powerOffNotice := by
  have h : unchangedBut noticeParts s
      (if s.seq.ctx0.isSome && s.seq.ctx1.isSome && !Config.noticeZeroFirst s.free then (s.powerOffAt .c1).powerOffAt .c0
      else (s.powerOffAt .c0).powerOffAt .c1) :=
    .ite (((powerOffAt_frame _ _).trans (powerOffAt_frame _ _)).widen _)
      (((powerOffAt_frame _ _).trans (powerOffAt_frame _ _)).widen _)
  unfold State.powerOffNotice
  dsimp only
  generalize (if s.seq.ctx0.isSome && s.seq.ctx1.isSome && !Config.noticeZeroFirst s.free then _ else _ : State) = u at h ⊢
  refine .trans (t := { u with free := s.free + 1 }) (h.trans ?_) ((receiverOff_frame _).widen _)
  intro p hp; cases p <;> first | rfl | exact absurd (by decide) hp

/-- What cutting off the port's work may change. -/
def cutPortParts : List Part := .port :: .waits :: .staged :: .flush :: .generation :: postParts

theorem cutPort_frame (s : State) : unchangedBut cutPortParts s s.cutPort := by
  have hc : ∀ s : State, unchangedBut cutPortParts s s.closeFlush := fun s => (closeFlush_frame s).widen _
  have k : ∀ u : State, unchangedBut cutPortParts u
      (match u.sensor.flush with
      | none => u
      | some _ =>
        match u.sensor.staged with
        | e :: rest =>
          if e.inProgress then
            ({ u with sensor := { u.sensor with staged := rest } }.handOver
              (.control (stagedResult e .sensorOff none))).closeFlush
          else u.closeFlush
        | [] => u.closeFlush) := by
    intro u
    split
    · exact .refl _ _
    · split
      · rename_i e rest _
        split
        · refine .trans (t := { u with sensor := { u.sensor with staged := rest } }) ?_
            (((handOver_frame _ _).widen _).trans (hc _))
          intro p hp; cases p <;> first | rfl | exact absurd (by decide) hp
        · exact hc u
      · exact hc u
  refine .trans ((closeLeftFlush_frame s).widen _) (.trans ?_
    (k { s.closeLeftFlush.freePort with sensor := { s.closeLeftFlush.freePort.sensor with replayWaits := false } }))
  intro p hp; cases p <;> first | rfl | exact absurd (by decide) hp

/-- What the removal of power may change. -/
def powerOffParts : List Part := .mirror :: .power :: .replay :: (noticeParts ++ cutPortParts)

theorem removePower_frame (s : State) : unchangedBut powerOffParts s s.removePower := by
  have off : ∀ u : State, unchangedBut powerOffParts u { u with sensor := { u.sensor with settle := none } } := by
    intro u p hp; cases p <;> first | rfl | exact absurd (by decide) hp
  have stale : ∀ u : State, unchangedBut powerOffParts u
      { u with sensor := { u.sensor with mirror := mirrorStale u.sensor.mirror, enableOut := false, power := .off } } := by
    intro u p hp; cases p <;> first | rfl | exact absurd (by decide) hp
  exact ((powerOffNotice_frame s).widen _).trans ((off _).trans (((cutPort_frame _).widen _).trans
    (((forgetReplay_frame _).widen _).trans (stale _))))

/-! ## Part states -/

theorem enterHalted_frame (cause : HaltCause) (d : Detail) (s : State) :
    unchangedBut haltParts s (s.enterHalted cause d) := by
  unfold State.enterHalted
  refine ((cutOffWrite_frame s).widen _).trans (.trans ?_ ((raise_frame _ _).widen haltParts))
  intro p hp; cases p <;> first | rfl | exact absurd (by decide) hp

theorem readFails_frame (r : HostRead) (s : State) : unchangedBut haltParts s (s.readFails r) := by
  unfold State.readFails; split
  · exact enterHalted_frame _ _ _
  · exact .refl _ _

/-- What entry to STARTING may change. -/
def startingParts : List Part := .flush :: .setup :: .slots :: .cplHead :: .stray :: haltParts

theorem enterStarting_frame (s : State) : unchangedBut startingParts s s.enterStarting := by
  have h : unchangedBut startingParts s (if s.cpl.unsignalled ≠ 0 then s.raise Causes.onlyCompletion else s) :=
    .ite ((raise_frame _ _).widen _) (.refl _ _)
  refine h.trans ?_
  unfold State.enterStarting
  generalize (if s.cpl.unsignalled ≠ 0 then s.raise Causes.onlyCompletion else s) = u
  dsimp only
  refine .ite ?_ (.trans ?_ ((enterHalted_frame _ _ _).widen startingParts)) <;> intro p hp <;> cases p <;>
    first | rfl | exact absurd (by decide) hp

/-- What entry to DRAINING may change. -/
def drainingParts : List Part := .partState :: .flushMark :: .receiver :: .capCredit :: .capRing :: followParts

theorem enterDraining_frame (s : State) : unchangedBut drainingParts s s.enterDraining := by
  unfold State.enterDraining
  refine .trans (t := { s with link := { s.link with part := .draining } }) ?_
    (((stopAllRequests_frame _ _).widen _).trans (((discardWaiting_frame _).widen _).trans
      (((engineDrain_frame _).widen _).trans (((captureTest_frame _).widen _).trans ((follow_frame _).widen _)))))
  intro p hp; cases p <;> first | rfl | exact absurd (by decide) hp

/-! ## Grants -/

/-- What serving a reserving context may change. -/
def assignParts : List Part := .cache :: .bufRing :: gapEvalParts

theorem assignBuffers_frame (c : CtxId) (s : State) : unchangedBut assignParts s (s.assignBuffers c) := by
  unfold State.assignBuffers
  split
  · exact .refl _ _
  · rename_i f _
    refine .trans (t := { s with bufs := { s.bufs with cache := (serve f.assignments s.bufs.cache).2.1 } }) ?_
      (((updCtx_frame c (fun g => { g with assignments := (serve f.assignments s.bufs.cache).1 }) _).widen _).trans
        (.trans ?_ ((bufferTest_frame _).widen _)))
    · intro p hp; cases p <;> first | rfl | exact absurd (by decide) hp
    · dsimp only
      split
      · exact ((updCtx_frame _ _ _).widen _).trans ((gapEvaluate_frame _ _).widen _)
      · exact .ite ((closeFrame_frame _ _ _).widen assignParts) (.refl _ _)
      · exact (updCtx_frame _ _ _).widen _

theorem measure_frame (c : CtxId) (s : State) : unchangedBut [.contexts] s (s.measure c) := updCtx_frame _ _ _

theorem returnFront_frame (g : CacheEntry → ReturnReason) (s : State) :
    unchangedBut (.cache :: .bufRing :: postParts) s (s.returnFront g) := by
  unfold State.returnFront
  split
  · exact .refl _ _
  · rename_i e rest _
    refine .trans (t := { s with bufs := { s.bufs with cache := rest } }) ?_
      (((handOver_frame _ _).widen _).trans ((bufferTest_frame _).widen _))
    intro p hp; cases p <;> first | rfl | exact absurd (by decide) hp

/-- What a grant to a context may change. -/
def grantFrameParts : List Part := assignParts ++ postParts

theorem grantFrame_frame (c : CtxId) (s : State) : unchangedBut grantFrameParts s (s.grantFrame c) := by
  unfold State.grantFrame
  split
  · exact .refl _ _
  · split
    · exact ((updCtx_frame _ _ _).widen _).trans
        (((returnFront_frame _ _).widen _).trans ((assignBuffers_frame _ _).widen _))
    · refine ((updCtx_frame c (fun f => { f with creditHeld := true }) s).widen _).trans (.ite ?_ (.refl _ _))
      exact ((measure_frame _ _).widen _).trans ((assignBuffers_frame _ _).widen _)

/-- What one pass of grants may change. -/
def grantParts : List Part := .capCredit :: .capRing :: .engine :: .ctlRing :: grantFrameParts

theorem grant_frame (r : Requester) (s : State) : unchangedBut grantParts s (s.grant r) := by
  unfold State.grant
  cases r
  · refine .trans (t := { s with sched := { s.sched with credit := .held } }) ?_ ((captureTest_frame _).widen _)
    intro p hp; cases p <;> first | rfl | exact absurd (by decide) hp
  · dsimp only; split
    · exact .refl _ _
    · exact (grantFrame_frame _ _).widen _
  · exact (returnFront_frame _ _).widen _
  · refine .trans (t := { s with engine := { s.engine with credit := .held } }) ?_ ((engineTest_frame _).widen _)
    intro p hp; cases p <;> first | rfl | exact absurd (by decide) hp

theorem grantPass_frame (rs : List Requester) (s : State) : unchangedBut grantParts s (grantPass rs s) := by
  induction rs generalizing s with
  | nil => exact .refl _ _
  | cons r rs ih =>
    unfold grantPass
    split
    · exact ih s
    · split
      · exact (grant_frame r s).trans (ih _)
      · exact .refl _ _

end Sys2Proof.Machine
end

