-- ==== Sys2Proof/Laws/Ops.lean ====
section
/-! SUPPORT. One lemma per shared operation that says once what it does: byte fields, the Settings Mirror, handing a
completion over, taking and finishing a control record, and what follows a change when nothing waits for the port. -/

set_option Elab.async false

namespace Sys2Proof.Machine

open Sys2Proof

/-! ## Bytes -/

@[simp] theorem leBytes_length (n v : Nat) : (leBytes n v).length = n := by
  induction n generalizing v with
  | zero => rfl
  | succ n ih => simp [leBytes, ih]

theorem padTo_length (n : Nat) (data : List Byte) (h : data.length ≤ n) : (padTo n data).length = n := by
  simp only [padTo, List.length_append, List.length_replicate]; omega

theorem leValue_lt (bs : List Byte) : leValue bs < 256 ^ bs.length := by
  induction bs with
  | nil => simp [leValue]
  | cons b bs ih =>
    have hb := b.isLt
    simp only [leValue, List.length_cons, pow_succ]
    omega

/-- A number that fits is read back from its little-endian bytes. -/
theorem leValue_leBytes (n v : Nat) (h : v < 256 ^ n) : leValue (leBytes n v) = v := by
  induction n generalizing v with
  | zero => simp at h; subst h; rfl
  | succ n ih =>
    rw [pow_succ] at h
    have hv : v / 256 < 256 ^ n := by omega
    simp only [leBytes, leValue, BitVec.toNat_ofNat, ih _ hv]
    omega

/-- A field is what stands behind the bytes in front of it. -/
theorem field_append (a b : List Byte) (off size : Nat) (h : a.length = off) : field (a ++ b) off size = leValue (b.take size) := by
  subst h; simp [field]

/-- A field spelled by `leBytes` is read back. -/
theorem field_leBytes (a c : List Byte) (off size v : Nat) (h : a.length = off) (hv : v < 256 ^ size) :
    field (a ++ (leBytes size v ++ c)) off size = v := by
  rw [field_append _ _ _ _ h, List.take_left' (leBytes_length size v), leValue_leBytes _ _ hv]

theorem slotBytes_length (phase : Bool) (contents : List Byte) (h : contents.length ≤ 63) :
    (slotBytes phase contents).length = 64 := by
  simp [slotBytes, padTo_length 63 contents h]

/-! ## The Settings Mirror (R111) -/

/-- Strictly rising addresses below 512, said of the whole list. -/
theorem mirrorWf_iff (m : List (Nat × MirrorEntry)) :
    mirrorWf m = true ↔ m.Pairwise (fun a b => a.1 < b.1) ∧ ∀ p ∈ m, p.1 < 512 := by
  induction m with
  | nil => simp [mirrorWf]
  | cons a m ih =>
    cases m with
    | nil =>
      simp only [mirrorWf, List.pairwise_singleton, List.mem_singleton, forall_eq, true_and]
      exact decide_eq_true_iff
    | cons b m =>
      simp only [mirrorWf, Bool.and_eq_true, decide_eq_true_eq, ih]
      constructor
      · rintro ⟨h, hp, hb⟩
        have hall : ∀ q ∈ b :: m, a.1 < q.1 := by
          intro q hq
          rcases List.mem_cons.mp hq with rfl | hq
          · exact h
          · exact h.trans ((List.pairwise_cons.mp hp).1 q hq)
        refine ⟨List.pairwise_cons.mpr ⟨hall, hp⟩, ?_⟩
        intro q hq
        rcases List.mem_cons.mp hq with rfl | hq
        · exact h.trans (hb b List.mem_cons_self)
        · exact hb q hq
      · rintro ⟨hp, hb⟩
        obtain ⟨h1, h2⟩ := List.pairwise_cons.mp hp
        exact ⟨h1 b List.mem_cons_self, h2, fun q hq => hb q (List.mem_cons_of_mem _ hq)⟩

theorem mirrorSet_mem (a : Nat) (e : MirrorEntry) (m : List (Nat × MirrorEntry)) (p : Nat × MirrorEntry)
    (h : p ∈ mirrorSet a e m) : p = (a, e) ∨ p ∈ m := by
  induction m with
  | nil => simpa [mirrorSet] using h
  | cons b m ih =>
    simp only [mirrorSet] at h
    split at h
    · simpa using h
    · split at h
      · rcases List.mem_cons.mp h with h | h
        · exact .inl h
        · exact .inr (List.mem_cons_of_mem _ h)
      · rcases List.mem_cons.mp h with h | h
        · exact .inr (h ▸ List.mem_cons_self)
        · exact (ih h).imp id (List.mem_cons_of_mem _)

/-- Setting an entry keeps the mirror's form. -/
theorem mirrorSet_wf (a : Nat) (e : MirrorEntry) (m : List (Nat × MirrorEntry)) (ha : a < 512) (h : mirrorWf m = true) :
    mirrorWf (mirrorSet a e m) = true := by
  rw [mirrorWf_iff] at h ⊢
  refine ⟨?_, fun p hp => (mirrorSet_mem a e m p hp).elim (fun h => h ▸ ha) (h.2 p)⟩
  replace h := h.1
  induction m with
  | nil => simp [mirrorSet]
  | cons b m ih =>
    obtain ⟨h1, h2⟩ := List.pairwise_cons.mp h
    simp only [mirrorSet]
    split
    · rename_i hab
      refine List.pairwise_cons.mpr ⟨fun q hq => ?_, h⟩
      rcases List.mem_cons.mp hq with rfl | hq
      · exact hab
      · exact hab.trans (h1 q hq)
    · split
      · rename_i hab
        exact List.pairwise_cons.mpr ⟨fun q hq => by have := h1 q hq; simp_all, h2⟩
      · refine List.pairwise_cons.mpr ⟨fun q hq => ?_, ih h2⟩
        rcases mirrorSet_mem a e m q hq with rfl | hq
        · dsimp only; omega
        · exact h1 q hq

theorem mirrorErase_wf (a : Nat) (m : List (Nat × MirrorEntry)) (h : mirrorWf m = true) :
    mirrorWf (mirrorErase a m) = true := by
  rw [mirrorWf_iff] at h ⊢
  exact ⟨h.1.filter _, fun p hp => h.2 p (List.mem_filter.mp hp).1⟩

theorem mirrorForget_wf (m : List (Nat × MirrorEntry)) (h : mirrorWf m = true) : mirrorWf (mirrorForget m) = true := by
  rw [mirrorWf_iff] at h ⊢
  exact ⟨h.1.filter _, fun p hp => h.2 p (List.mem_filter.mp hp).1⟩

theorem mirrorStale_wf (m : List (Nat × MirrorEntry)) (h : mirrorWf m = true) : mirrorWf (mirrorStale m) = true := by
  rw [mirrorWf_iff] at h ⊢
  refine ⟨List.Pairwise.map _ (fun _ _ hab => hab) h.1, ?_⟩
  simp only [mirrorStale, List.mem_map]
  rintro p ⟨q, hq, rfl⟩
  exact h.2 q hq

/-- An address set reads as the entry set. -/
@[simp] theorem mirrorAt_set_same (a : Nat) (e : MirrorEntry) (m : List (Nat × MirrorEntry)) :
    mirrorAt a (mirrorSet a e m) = some e := by
  induction m with
  | nil => simp [mirrorSet, mirrorAt]
  | cons b m ih =>
    simp only [mirrorSet]
    split
    · simp [mirrorAt]
    · split
      · simp [mirrorAt]
      · rename_i h; simp [mirrorAt, Ne.symm h, ih]

/-- Every other address reads as before. -/
theorem mirrorAt_set_other (a b : Nat) (e : MirrorEntry) (m : List (Nat × MirrorEntry)) (h : b ≠ a) :
    mirrorAt b (mirrorSet a e m) = mirrorAt b m := by
  induction m with
  | nil => simp [mirrorSet, mirrorAt, Ne.symm h]
  | cons c m ih =>
    simp only [mirrorSet]
    split
    · simp [mirrorAt, Ne.symm h]
    · split
      · rename_i hc; subst hc; simp [mirrorAt, Ne.symm h]
      · simp [mirrorAt, ih]

@[simp] theorem mirrorAt_erase_same (a : Nat) (m : List (Nat × MirrorEntry)) : mirrorAt a (mirrorErase a m) = none := by
  induction m with
  | nil => rfl
  | cons c m ih =>
    by_cases h : c.1 = a <;> simp_all [mirrorErase, mirrorAt]

theorem mirrorAt_erase_other (a b : Nat) (m : List (Nat × MirrorEntry)) (h : b ≠ a) :
    mirrorAt b (mirrorErase a m) = mirrorAt b m := by
  induction m with
  | nil => rfl
  | cons c m ih =>
    by_cases hc : c.1 = a
    · have hb : c.1 ≠ b := fun he => h (he.symm.trans hc)
      simpa [mirrorErase, mirrorAt, hc, Ne.symm h] using ih
    · simp [mirrorErase, mirrorAt, hc] at ih ⊢
      simp [ih]

theorem mirrorAt_stale (a : Nat) (m : List (Nat × MirrorEntry)) :
    mirrorAt a (mirrorStale m) = (mirrorAt a m).map fun e => { e with stale := true } := by
  induction m with
  | nil => rfl
  | cons c m ih =>
    simp only [mirrorStale, List.map_cons, mirrorAt] at ih ⊢
    split <;> simp_all

/-! ## The records the part writes (R183, Tables 79, 80 and 82) -/

theorem detailItem_eq (d : Detail) : detailItem d = d.code := by cases d <;> rfl

theorem outcomeItem_eq (o : FrameOutcome) : outcomeItem o = o.code := by cases o <;> rfl

theorem resultItem_eq (r : WindowResult) : resultItem r = r.code := by cases r <;> rfl

theorem finalItem_eq (f : FinalStatus) : finalItem f = f.code := by cases f <;> rfl

theorem statusItem_eq (c : ControlStatus) : statusItem c = c.code := by cases c <;> rfl

theorem reasonItem_eq (r : ReturnReason) : reasonItem r = r.code := by cases r <;> rfl

theorem flagItem_eq (f : FrameFlags) : flagItem f = f.byte := by
  simp only [flagItem, FrameFlags.byte, flagByte]; omega

theorem leBytes_zero (n : Nat) : leBytes n 0 = List.replicate n 0 := by
  induction n with
  | zero => rfl
  | succ n ih => simp [leBytes, ih, List.replicate_succ]

/-- The bytes of one item. -/
theorem leBytes_eq (n v : Nat) : leBytes n v = (List.range n).map fun k => BitVec.ofNat 8 (v / 256 ^ k) := by
  induction n generalizing v with
  | zero => rfl
  | succ n ih =>
    rw [leBytes, ih, List.range_succ_eq_map]
    simp [Nat.div_div_eq_div_mul, pow_succ, mul_comm]

/-- The items of a run of fields from an offset on: each a size and a value, or no value where no item stands. -/
def runItems : Nat → List (Nat × Option Nat) → List Item
  | _, [] => []
  | o, (n, some v) :: l => ⟨o, n, v⟩ :: runItems (o + n) l
  | o, (n, none) :: l => runItems (o + n) l

/-- The byte that items put at an offset. -/
def itemByte (items : List Item) (k : Nat) : Byte :=
  ((items.find? fun i => decide (i.off ≤ k ∧ k < i.off + i.size)).map fun i => i.byteAt k).getD 0

theorem laidOut_eq (n : Nat) (items : List Item) : laidOut n items = (List.range' 0 n).map (itemByte items) := by
  simp [laidOut, itemByte, List.range_eq_range']

/-- A run puts nothing in front of its offset. -/
theorem itemByte_before (l : List (Nat × Option Nat)) (o k : Nat) (h : k < o) : itemByte (runItems o l) k = 0 := by
  induction l generalizing o with
  | nil => rfl
  | cons p l ih =>
    obtain ⟨n, _ | v⟩ := p
    · exact ih (o + n) (by omega)
    · have := ih (o + n) (by omega)
      simpa [runItems, itemByte, List.find?_cons, show ¬ o ≤ k by omega] using this

/-- A run of fields lays out as their bytes one after the other. -/
theorem runItems_bytes (l : List (Nat × Option Nat)) (o : Nat) :
    (List.range' o (l.map Prod.fst).sum).map (itemByte (runItems o l)) = l.flatMap fun p => leBytes p.1 (p.2.getD 0) := by
  induction l generalizing o with
  | nil => rfl
  | cons p l ih =>
    obtain ⟨n, v⟩ := p
    rw [List.map_cons, List.sum_cons, ← List.range'_append_1, List.map_append, List.flatMap_cons, ← ih (o + n)]
    congr 1
    · rw [leBytes_eq, List.range'_eq_map_range, List.map_map]
      refine List.map_congr_left fun k hk => ?_
      have hk := List.mem_range.mp hk
      cases v with
      | none => exact (itemByte_before l (o + n) (o + k) (by omega)).trans (by simp)
      | some v => simp [runItems, itemByte, Item.byteAt, hk]
    · refine List.map_congr_left fun k hk => ?_
      have hk := List.mem_range'_1.mp hk
      cases v with
      | none => rfl
      | some v => simp [runItems, itemByte, show ¬ k < o + n by omega]

/-- A record whose items are a run from its first byte to its last. -/
theorem laidOut_run {n : Nat} {items : List Item} {bytes : List Byte} (l : List (Nat × Option Nat))
    (h : items = runItems 0 l) (hn : (l.map Prod.fst).sum = n)
    (hb : l.flatMap (fun p => leBytes p.1 (p.2.getD 0)) = bytes) : laidOut n items = bytes := by
  rw [laidOut_eq, h, ← hn, ← hb]; exact runItems_bytes l 0

/-- The window, the result, the tag and the bytes written of an assignment place, as values. -/
def placeValues (place : Option Assignment) : Nat × Nat × Nat × Nat :=
  match place with
  | none => (0, WindowResult.noBuffer.code, 0, 0)
  | some a =>
    (a.window, (a.result.getD .noBuffer).code, (a.buffer.map fun b => b.tag.toNat).getD 0,
      if a.buffer.isSome then a.written else 0)

theorem assignmentItems_eq (off : Nat) (p : Option Assignment) :
    assignmentItems off p = [⟨off, 1, (placeValues p).1⟩, ⟨off + 1, 1, (placeValues p).2.1⟩,
      ⟨off + 2, 4, (placeValues p).2.2.1⟩, ⟨off + 6, 4, (placeValues p).2.2.2⟩] := by
  cases p <;> simp [assignmentItems, placeValues, resultItem_eq]

theorem assignmentBytes_eq (p : Option Assignment) :
    assignmentBytes p = leBytes 1 (placeValues p).1 ++ leBytes 1 (placeValues p).2.1 ++ leBytes 4 (placeValues p).2.2.1 ++
      leBytes 4 (placeValues p).2.2.2 := by
  rcases p with _ | ⟨w, _ | b, x, y, r⟩ <;> simp [assignmentBytes, placeValues]

/-- The fields of an assignment place. -/
def placeRun (p : Option Assignment) : List (Nat × Option Nat) :=
  [(1, some (placeValues p).1), (1, some (placeValues p).2.1), (4, some (placeValues p).2.2.1),
    (4, some (placeValues p).2.2.2)]

/-- Table 79: the Progress Block of the meaning. -/
theorem progressWrite_eq (u : Setup) (ctl cap buf : Nat) :
    progressWrite u ctl cap buf = .memory u.progress (progressBytes ctl cap buf) := by
  refine congrArg (LinkWrite.memory u.progress) (laidOut_run [(2, some ctl), (2, some cap), (2, some buf), (10, none)] rfl rfl ?_)
  simp [progressBytes, padTo, leBytes_zero]

theorem frameItems_bytes (phase : Bool) (r : FrameReport) :
    laidOut 64 (frameItems r ++ [⟨63, 1, phase.toNat⟩]) = slotBytes phase (frameBytes r) := by
  have hs : (r.sensorFrame.map BitVec.toNat).getD 0 = (r.sensorFrame.getD 0).toNat := by cases r.sensorFrame <;> rfl
  have hg : (r.generation.map BitVec.toNat).getD 0 = (r.generation.getD 0).toNat := by cases r.generation <;> rfl
  have he : (r.expStart.map BitVec.toNat).getD 0 = (r.expStart.getD 0).toNat := by cases r.expStart <;> rfl
  have ha : (r.actual.map BitVec.toNat).getD 0 = (r.actual.getD 0).toNat := by cases r.actual <;> rfl
  have hf : flagByte [r.sensorFrame.isSome, r.generation.isSome] =
      r.sensorFrame.isSome.toNat + 2 * r.generation.isSome.toNat := by simp [flagByte]
  simp only [frameItems, assignmentItems_eq, outcomeItem_eq, flagItem_eq, hs, hg, he, ha]
  refine laidOut_run ([(1, some 1), (1, some r.assignments.length), (1, some r.outcome.code), (1, some r.flags.byte),
    (4, some r.tag.toNat), (2, some r.index), (1, some (r.sensorFrame.getD 0).toNat),
    (1, some (r.sensorFrame.isSome.toNat + 2 * r.generation.isSome.toNat)), (4, some (r.generation.getD 0).toNat),
    (8, some (r.expStart.getD 0).toNat), (4, some (r.actual.getD 0).toNat), (2, some r.badLines),
    (2, some r.missingLines), (2, some r.missed), (2, some r.stray)] ++ placeRun r.assignments[0]? ++
    placeRun r.assignments[1]? ++ [(7, none), (1, some phase.toNat)])
    (by simp [runItems, placeRun]) (by simp [placeRun]) ?_
  simp [slotBytes, frameBytes, padTo, assignmentBytes_eq, hf, placeRun, leBytes_zero]

theorem frameContItems_bytes (phase : Bool) (r : FrameReport) :
    laidOut 64 (frameContItems r ++ [⟨63, 1, phase.toNat⟩]) = slotBytes phase (frameContBytes r) := by
  simp only [frameContItems, assignmentItems_eq]
  refine laidOut_run ([(1, some 2), (3, none), (4, some r.tag.toNat), (2, some r.index), (2, none)] ++
    placeRun r.assignments[2]? ++ placeRun r.assignments[3]? ++ placeRun r.assignments[4]? ++ placeRun r.assignments[5]? ++
    [(11, none), (1, some phase.toNat)]) (by simp [runItems, placeRun]) (by simp [placeRun]) ?_
  have h : leBytes 4 2 = leBytes 1 2 ++ List.replicate 3 0 := rfl
  simp [slotBytes, frameContBytes, padTo, assignmentBytes_eq, placeRun, leBytes_zero, h]

/-- Table 80: the slots of the meaning, each with its phase. -/
theorem Completion.slotItems_bytes (c : Completion) :
    ((∃ a b, c.slotItems = [a] ∧ c.slots = [b] ∧
        ∀ phase, laidOut 64 (a ++ [⟨63, 1, phase.toNat⟩]) = slotBytes phase b)) ∨
      ∃ a b a' b', c.slotItems = [a, a'] ∧ c.slots = [b, b'] ∧
        (∀ phase, laidOut 64 (a ++ [⟨63, 1, phase.toNat⟩]) = slotBytes phase b) ∧
        ∀ phase, laidOut 64 (a' ++ [⟨63, 1, phase.toNat⟩]) = slotBytes phase b' := by
  cases c with
  | frame r =>
    by_cases h : r.assignments.length ≤ 2
    · exact .inl ⟨_, _, if_pos h, if_pos h, (frameItems_bytes · r)⟩
    · exact .inr ⟨_, _, _, _, if_neg h, if_neg h, (frameItems_bytes · r), (frameContItems_bytes · r)⟩
  | requestEnd r =>
    refine .inl ⟨_, _, rfl, rfl, fun phase => ?_⟩
    refine laidOut_run [(1, some 3), (1, some r.status.code), (1, some r.detail.code), (1, none), (4, some r.tag.toNat),
      (2, some r.begun), (2, some r.good), (2, some r.skipped), (2, some r.missed), (47, none), (1, some phase.toNat)]
      (by simp only [finalItem_eq, detailItem_eq]; rfl) rfl ?_
    simp [slotBytes, requestEndBytes, padTo, leBytes_zero]
  | control r =>
    have hg : (r.generation.map BitVec.toNat).getD 0 = (r.generation.getD 0).toNat := by cases r.generation <;> rfl
    refine .inl ⟨_, _, rfl, rfl, fun phase => ?_⟩
    refine laidOut_run [(1, some 4), (1, some r.kind.toNat), (1, some r.status.code), (1, some r.detail.code),
      (4, some r.tag.toNat), (2, some r.read.toNat), (1, some r.generation.isSome.toNat), (1, none),
      (4, some (r.generation.getD 0).toNat), (2, some r.replayed), (2, some r.failed), (43, none), (1, some phase.toNat)]
      (by simp only [statusItem_eq, detailItem_eq, hg]; rfl) rfl ?_
    simp [slotBytes, controlBytes, padTo, leBytes_zero, flagByte]
  | bufferReturn tag reason =>
    refine .inl ⟨_, _, rfl, rfl, fun phase => ?_⟩
    refine laidOut_run [(1, some 5), (1, some reason.code), (2, none), (4, some tag.toNat), (55, none), (1, some phase.toNat)]
      (by simp only [reasonItem_eq]; rfl) rfl ?_
    simp [slotBytes, bufferReturnBytes, padTo, leBytes_zero]

/-! ## Handing a completion over (R160, R161, R169) -/

@[simp] theorem writeProgress_issued (s : State) (u : Setup) (h : s.ring.setup = some u) :
    s.writeProgress.link.issued = s.link.issued ++ [progressWrite u s.ring.ctlHead s.ring.capHead s.ring.bufHead] := by
  simp [State.writeProgress, h, progressWrite_eq]

theorem writeSlots_spec (u : Setup) (c : Completion) (s : State) :
    (s.writeSlots u c).link.issued = s.link.issued ++ slotWrites u (s.cpl.tail, s.cpl.phase) c ∧
      ((s.writeSlots u c).cpl.tail, (s.writeSlots u c).cpl.phase) = afterSlots u (s.cpl.tail, s.cpl.phase) c := by
  have hn : ∀ p, slotBehind u p = nextSlot u.completion.size p := fun _ => rfl
  rcases c.slotItems_bytes with ⟨a, b, h1, h2, h3⟩ | ⟨a, b, a', b', h1, h2, h3, h4⟩
  · simp [State.writeSlots, slotWrites, slotWrite, afterSlots, h1, h2, h3, hn, State.issue, slotAddr]
  · simp [State.writeSlots, slotWrites, slotWrite, afterSlots, h1, h2, h3, h4, hn, State.issue, slotAddr]

/-- Causes are only added by a raise. -/
@[simp] theorem raise_cause (c : Causes) (s : State) : (s.raise c).cpl.cause = s.cpl.cause.or c := rfl

/-- The line follows the condition, whatever is raised (R171). -/
theorem setCauses_lineFollows (c m : Causes) (s : State) : (s.setCauses c m).lineFollows := rfl

theorem raise_lineFollows (c : Causes) (s : State) : (s.raise c).lineFollows := rfl

/-- What one count does: it moves the unsignalled count, the timer and COMPLETION by R169, and sends the message of R171. -/
theorem coalesce_spec (u : Setup) (c : Completion) (s w : State) (hw : w.handed = { s.handed with slot := w.handed.slot })
    (hs : w.handed.slot = afterSlots u s.handed.slot c) (hn : w.now = s.now) (hm : w.link.msi = s.link.msi)
    (hk : w.cpl.mask = s.cpl.mask) (hc : w.cpl.cause = s.cpl.cause) :
    (w.coalesce u).handed = s.handed.next u s.now c ∧
      (w.coalesce u).link.issued = w.link.issued ++
        (if s.signalsWith s.handed.completion = false ∧ s.signalsWith (s.handed.next u s.now c).completion = true then
          [.message] else []) ∧
      (w.coalesce u).cpl.cause.halt = s.cpl.cause.halt ∧ (w.coalesce u).cpl.cause.badIndex = s.cpl.cause.badIndex := by
  have h1 : w.cpl.unsignalled = s.cpl.unsignalled := congrArg Handed.unsignalled hw
  have h2 : w.cpl.timer = s.cpl.timer := congrArg Handed.timer hw
  unfold State.coalesce Handed.next
  have e : s.handed.unsignalled = s.cpl.unsignalled := rfl
  rw [h1, e]
  split
  · refine ⟨?_, ?_, by simp [Causes.or, Causes.onlyCompletion, hc], by simp [Causes.or, Causes.onlyCompletion, hc]⟩
    · rw [← hs]; simp [State.handed, State.raise, State.setCauses, Causes.or, Causes.onlyCompletion]
    · rw [raise_issued]
      refine congrArg (w.link.issued ++ ·) (if_congr ?_ rfl rfl)
      generalize hv : ({ w with cpl := { w.cpl with unsignalled := 0, timer := none } } : State) = v
      have v1 : v.link.msi = s.link.msi := by rw [← hv]; exact hm
      have v2 : v.signalling = s.signalling := by
        rw [← hv]; show Machine.signalling w.cpl.cause w.cpl.mask = _; rw [hc, hk]; rfl
      have v3 : (v.raise Causes.onlyCompletion).signalling =
          Machine.signalling { s.cpl.cause with completion := true } s.cpl.mask := by
        rw [← hv]; show Machine.signalling (w.cpl.cause.or _) w.cpl.mask = _
        simp [hc, hk, Causes.or, Causes.onlyCompletion]
      rw [v1, v2, v3]
      show _ ↔ (s.link.msi && s.signalling) = false ∧ (s.link.msi && Machine.signalling _ s.cpl.mask) = true
      cases s.link.msi <;> simp
  · refine ⟨?_, ?_, by simp [hc], by simp [hc]⟩
    · rw [← hs]; simp [State.handed, Timer.start, h2, hc, hn]
    · simp [State.handed]

theorem writeSlots_cause (u : Setup) (c : Completion) (s : State) : (s.writeSlots u c).cpl.cause = s.cpl.cause :=
  (writeSlots_frame u c s).get .cause

/-- What handing one completion over does: its slots with their message, and the Completion Writer behind it. -/
theorem handOver_posts (u : Setup) (c : Completion) (s : State) (h : s.ring.setup = some u) :
    Posts u [] [c] s (s.handOver c) := by
  obtain ⟨w1, w2⟩ := writeSlots_spec u c s
  have hq : ((s.writeSlots u c).cpl.unsignalled, (s.writeSlots u c).cpl.timer) = (s.cpl.unsignalled, s.cpl.timer) :=
    (writeSlots_frame u c s).get .coalescing
  have hw := writeSlots_cause u c s
  simp only [Prod.mk.injEq] at hq
  obtain ⟨c1, c2, c3, c4⟩ := coalesce_spec u c s (s.writeSlots u c)
    (by simp [State.handed, hq, hw]) (by simpa [State.handed] using w2) ((writeSlots_frame u c s).get .time)
    ((writeSlots_frame u c s).get .msi) ((writeSlots_frame u c s).get .mask) hw
  have e : s.handOver c = (s.writeSlots u c).coalesce u := by simp [State.handOver, h]
  rw [e]
  refine ⟨?_, c1, c3, c4⟩
  rw [c2, w1]
  simp [runWrites, State.handed]

theorem runWrites_append (u : Setup) (now : Stamp) (g : Bool → Bool) (a : Handed) (cs ds : List Completion) :
    runWrites u now g a (cs ++ ds) =
      runWrites u now g a cs ++ runWrites u now g (cs.foldl (fun h c => h.next u now c) a) ds := by
  induction cs generalizing a with
  | nil => rfl
  | cons c cs ih => simp [runWrites, ih]

/-- Completions handed over behind others. -/
theorem Posts.append {u : Setup} {bs : List LinkWrite} {cs ds : List Completion} {s t v : State} (h : Posts u bs cs s t)
    (k : Posts u [] ds t v) (hn : t.now = s.now) (hm : t.link.msi = s.link.msi) (hk : t.cpl.mask = s.cpl.mask) :
    Posts u bs (cs ++ ds) s v := by
  obtain ⟨h1, h2, h3, h4⟩ := h
  obtain ⟨k1, k2, k3, k4⟩ := k
  have hg : t.signalsWith = s.signalsWith := by
    funext b; simp [State.signalsWith, Machine.signalling, hm, hk, h3, h4]
  refine ⟨?_, ?_, k3.trans h3, k4.trans h4⟩
  · rw [k1, h1, hg, h2, hn]; simp [runWrites_append]
  · rw [k2, h2, hn, List.foldl_append]

/-- Handing over touches no held Setup Block value. -/
@[simp] theorem handOver_setup (c : Completion) (s : State) : (s.handOver c).ring.setup = s.ring.setup :=
  (handOver_frame c s).get .setup

/-- A waiting-list discard posts one completion per WAITING entry, in list order (R121). -/
theorem foldHandOver_posts (u : Setup) (l : List Staged) (g : Staged → Completion) (s : State)
    (h : s.ring.setup = some u) : Posts u [] (l.map g) s (l.foldl (fun s e => s.handOver (g e)) s) := by
  induction l generalizing s with
  | nil => exact ⟨by simp [runWrites], rfl, rfl, rfl⟩
  | cons e l ih =>
    have f := handOver_frame (g e) s
    exact (handOver_posts u (g e) s h).append (ih (s.handOver (g e)) ((handOver_setup _ _).trans h)) (f.get .time)
      (f.get .msi) (f.get .mask)

/-! ## Control records -/

/-- The engine once a record is finished (R133, R138). -/
theorem finishRecord_engine (r : ControlResult) (s : State) :
    (s.finishRecord r).engine =
      (if s.link.part = .running ∧ s.ringWaiting .control = true then
        { mode := .waitCredit, credit := .asked, job := none } else { mode := .idle, credit := .none, job := none }) := by
  have hp : (s.handOver (.control r)).link.part = s.link.part := (handOver_frame _ s).get .partState
  have hw : (s.handOver (.control r)).ringWaiting .control = s.ringWaiting .control := by
    have h1 : ((s.handOver (.control r)).ring.ctlHead, (s.handOver (.control r)).ring.ctlRead) =
        (s.ring.ctlHead, s.ring.ctlRead) := (handOver_frame _ s).get .ctlRing
    have h2 : ((s.handOver (.control r)).ring.ctlTail, (s.handOver (.control r)).ring.capTail,
        (s.handOver (.control r)).ring.bufTail) = (s.ring.ctlTail, s.ring.capTail, s.ring.bufTail) :=
      (handOver_frame _ s).get .tails
    simp only [Prod.mk.injEq] at h1 h2
    unfold State.ringWaiting State.ringHead State.ringTail
    rw [h1.1, h2.1]
  have e : ∀ v : State, ({ v with engine := { mode := .idle, credit := .none, job := none } } : State).engineTest.engine =
      (if v.link.part = .running ∧ v.ringWaiting .control = true then
        { mode := .waitCredit, credit := .asked, job := none } else { mode := .idle, credit := .none, job := none }) := by
    intro v
    unfold State.engineTest
    have : State.ringWaiting { v with engine := { mode := .idle, credit := .none, job := none } } .control =
        v.ringWaiting .control := rfl
    simp only [this]
    split <;> simp_all
  unfold State.finishRecord
  rw [e, hp, hw]

/-- A record that is read reaches its meaning with the head advanced, the Progress Block issued and the engine in EXECUTING
(R133, R143, R153, R156). -/
theorem takeRecord_eq (f : State → State) (s : State) (u : Setup) (h : s.readingControl u) :
    s.takeRecord f =
      f { s with
        ring := { s.ring with ctlRead := none, ctlHead := nextControlHead u s }
        engine := { s.engine with mode := .executing }
        link := { s.link with issued := s.link.issued ++ [recordProgress u s] } } := by
  obtain ⟨h1, h2⟩ := h
  obtain ⟨t, ht⟩ := Option.isSome_iff_exists.mp h1
  simp [State.takeRecord, ht, State.advanceRing, State.writeProgress, h2, State.issue, recordProgress, progressWrite_eq,
    nextControlHead, State.ringHead, State.ringSize]

/-- A control record that no read in progress brings has no effect (R155). -/
theorem takeRecord_none (f : State → State) (s : State) (h : s.ring.ctlRead = none) : s.takeRecord f = s := by
  simp [State.takeRecord, h]

/-! ## What follows a change (R110, R120) -/

theorem arbitrate_quiet (s : State) (h1 : s.sensor.replayWaits = false) (h2 : s.sensor.flushWaits = false)
    (h3 : s.sensor.engineWaits = false) : s.arbitrate = s := by
  simp [State.arbitrate, State.grantReplay, State.grantFlush, State.grantEngine, h1, h2, h3]

theorem arbitrate_busy (s : State) (h : s.sensor.port ≠ none) : s.arbitrate = s := by
  simp [State.arbitrate, State.grantReplay, State.grantFlush, State.grantEngine, h]

theorem checkFlushRecord_other (s : State) (h : s.noFlushRecord) : s.checkFlushRecord = s := by
  unfold State.checkFlushRecord
  split
  · rename_i tag hj
    simp [State.noFlushRecord, hj] at h
  · rfl

/-- With a busy port or nothing waiting for it, and no FLUSH_STAGED in hand, only the interval timer can be stopped. -/
theorem follow_quiet (s : State) (h : s.portQuiet) : s.follow = s.tidyInterval := by
  unfold State.follow
  rw [checkFlushRecord_other s h.2]
  rcases h.1 with hp | ⟨h1, h2, h3⟩
  · rw [arbitrate_busy s hp]
  · rw [arbitrate_quiet s h1 h2 h3]

/-! ## Host reads and the active request (R11, R12, R153) -/

/-- Under a held Setup Block the read of a ring's record is of the record at its head (R144, R153). -/
theorem recordRead_eq (u : Setup) (r : RingId) (s : State) (h : s.ring.setup = some u) :
    s.recordRead r = some (readAt u (s.ringHead r) s r) := by
  cases r <;> simp [State.recordRead, State.hostRead, State.recordAddr, State.ringAddr, recordSize, h, readAt, readFrom,
    Timer.start, Config.hostReadMicros]

/-- What becoming the active request leaves (R11, R12, R37, R38). -/
theorem becomeActive_spec (e : Entry) (rest : List Entry) (s : State) (h : s.sched.queue = e :: rest) :
    BecameActive e s s.becomeActive := by
  unfold BecameActive State.becomeActive
  dsimp only
  rw [h]
  by_cases hm : e.mark = .none
  · cases hr : e.request with
    | none => simp [State.liveRequest, hr, hm]
    | some r =>
      by_cases hi : r.source = .interval
      · cases hd : r.discard <;>
          simp [State.liveRequest, hr, hm, hi, hd, Option.filter, State.firstTick, State.earlyTrigger, Timer.start,
            satAdd, Config.countLimit]
      · simp [State.liveRequest, hr, hm, hi, Option.filter]
  · simp [State.liveRequest, hm]

/-! ## A flush left behind, and the end of a drain (R130, R131, R177) -/

/-- All that ends with the WRITE of a flush left behind is the generation it carries. -/
theorem closeLeftFlush_eq (s : State) :
    s.closeLeftFlush = { s with sensor := { s.sensor with generation := s.leftGeneration } } := by
  unfold State.closeLeftFlush State.leftGeneration
  generalize s.sensor.port.map Transaction.owner = owner
  rcases owner with _ | (_ | _ | _ | _ | g) <;> rfl

/-- With nothing staged, the end of a drain changes the Sensor Link alone, by Table 49. -/
theorem drainPort_eq (s : State) (h : s.sensor.staged = []) : s.drainPort = { s with sensor := s.drainedSensor } := by
  unfold State.drainPort State.cutPort State.drainedSensor State.cutGeneration
  rw [closeLeftFlush_eq]
  cases hf : s.sensor.flush with
  | none => simp [State.freePort, State.forgetReplay, hf]
  | some f =>
    by_cases ht : f.taken = 0 <;> simp [State.freePort, State.forgetReplay, State.closeFlush, hf, h, ht]

/-- The guard of DRAIN_FINISH is R177. -/
theorem drained_iff (s : State) : s.drained = true ↔ Finished s := by
  unfold State.drained Finished State.contextsFree
  simp only [Bool.and_eq_true, decide_eq_true_eq, Option.isNone_iff_eq_none, List.isEmpty_iff]
  constructor
  · rintro ⟨⟨⟨⟨⟨⟨⟨⟨⟨⟨⟨⟨h1, h2⟩, h3⟩, h4, h5⟩, h6⟩, h7⟩, h8⟩, h9⟩, h10⟩, _⟩, h11⟩, h12⟩, h13⟩
    exact ⟨h1, h2, h3, h4, h5, h6, h7, h8, h9, h10, h11, h12, h13⟩
  · rintro ⟨h1, h2, h3, h4, h5, h6, h7, h8, h9, h10, h11, h12, h13⟩
    exact ⟨⟨⟨⟨⟨⟨⟨⟨⟨⟨⟨⟨h1, h2⟩, h3⟩, h4, h5⟩, h6⟩, h7⟩, h8⟩, h9⟩, h10⟩,
      by simp [State.reserved, h2, h4, h5, h7, h9, h10, heldSlots, CreditState.slots]⟩, h11⟩, h12⟩, h13⟩

theorem replayStands_iff (s : State) : s.replayStands = true ↔ ReplayTakenOff s := by
  simp [State.replayStands, ReplayTakenOff, and_assoc]

/-! ## The interval timer and the fetch of capture records (R3, R12) -/

/-- What every event that may end the interval timer does to it. -/
theorem tidyInterval_follows (s : State) : IntervalFollows s s.tidyInterval := by
  have key : (s.noFurtherFrame && !s.startWaits .c0 && !s.startWaits .c1) = true ↔ s.intervalStops := by
    unfold State.noFurtherFrame State.intervalStops State.startWaits
    have hc : ∀ p : CtxId → Prop, (∀ c, p c) ↔ p .c0 ∧ p .c1 :=
      fun p => ⟨fun h => ⟨h _, h _⟩, fun h c => by cases c; exacts [h.1, h.2]⟩
    rw [hc]
    cases s.sched.queue with
    | nil => simp [and_assoc]
    | cons e q => cases hr : e.request <;> simp [hr, and_assoc, or_assoc, Option.isSome_iff_ne_none]
  unfold State.tidyInterval
  split
  · rename_i h
    exact ⟨fun _ => rfl, fun k => absurd (key.mp h) k⟩
  · rename_i h
    exact ⟨fun k => absurd (key.mpr k) h, fun _ => rfl⟩

/-- What the Capture Scheduler's test does (R3). -/
theorem captureTest_tested (u : Setup) (s : State) (h : s.ring.setup = some u) : CaptureTested u s s.captureTest := by
  have ha : s.recordRead .capture = some (readAt u s.ring.capHead s .capture) := by
    simp [State.recordRead, State.hostRead, State.recordAddr, State.ringAddr, State.ringHead, recordSize, readAt, readFrom,
      Timer.start, Config.hostReadMicros, h]
  have hw : s.ringWaiting .capture = true ↔ s.ring.capHead ≠ s.ring.capTail.toNat := decide_eq_true_iff
  have hm : s.captureMayFetch = true ↔
      s.link.part = .running ∨ (s.link.part = .draining ∧ s.sched.flushMark ≠ none) := by
    simp [State.captureMayFetch, Option.isSome_iff_ne_none]
  unfold CaptureTested State.captureTest
  by_cases h1 : s.link.part = .draining ∧ s.sched.flushMark = none
  · rw [if_pos h1]
    by_cases h2 : s.ring.capRead = none <;> simp [h1, h2]
  · rw [if_neg h1]
    have h1' : s.link.part = .draining → s.sched.flushMark ≠ none := fun a b => h1 ⟨a, b⟩
    have hg : (s.captureMayFetch = true ∧ s.sched.queue.length < Config.queueDepth ∧ s.ringWaiting .capture = true) ↔
        ((s.link.part = .running ∨ s.link.part = .draining) ∧ s.sched.queue.length < 4 ∧
          s.ring.capHead ≠ s.ring.capTail.toNat) := by
      rw [hm, hw]
      exact ⟨fun k => ⟨k.1.imp id And.left, k.2⟩, fun k => ⟨k.1.imp id fun a => ⟨a, h1' a⟩, k.2⟩⟩
    by_cases h2 : s.captureMayFetch = true ∧ s.sched.queue.length < Config.queueDepth ∧ s.ringWaiting .capture = true
    · rw [if_pos h2]
      have h3 := hg.mp h2
      cases hk : s.sched.credit with
      | none => simp [h1, h3]
      | asked => simp [h1, h3, hk]
      | held => by_cases h4 : s.ring.capRead = none <;> simp [h1, h3, hk, h4, ha]
    · rw [if_neg h2]
      have h3 := fun k => h2 (hg.mpr k)
      rw [if_neg h1, if_neg h3]
      exact ⟨rfl, rfl, rfl⟩

end Sys2Proof.Machine
end

