-- ==== Sys2Proof/Laws/PerInstr.lean ====
section
/-! SUPPORT. Per command: the record a well-formed control command is written as has 64 bytes (Table 76); a command that is
no control record is written as none. -/

set_option Elab.async false

namespace Sys2Proof.Laws

open Sys2Proof Sys2Proof.Machine

/-- What a control command is written as has 64 bytes. -/
def RecordLength.Statement (i : Instr) : Prop :=
  i.WellFormed = true → ∀ data, encodeControl i = some data → data.length = 64

theorem recordOf_length (kind : Byte) (tag : Word) (fields : List Byte) (h : fields.length ≤ 56) :
    (recordOf kind tag fields).length = 64 := by
  simp only [recordOf, padTo, List.length_append, leBytes_length, List.length_replicate]
  omega

theorem RecordLength.powerOn (pin : Level) : RecordLength.Statement (.powerOn pin) := fun _ _ hd => nomatch hd

theorem RecordLength.functionReset (pin : Level) : RecordLength.Statement (.functionReset pin) := fun _ _ hd => nomatch hd

theorem RecordLength.partReset (enable : Bool) (pin : Level) : RecordLength.Statement (.partReset enable pin) := fun _ _ hd => nomatch hd

theorem RecordLength.enableSet : RecordLength.Statement .enableSet := fun _ _ hd => nomatch hd

theorem RecordLength.enableClear : RecordLength.Statement .enableClear := fun _ _ hd => nomatch hd

theorem RecordLength.intCauseWrite (value : Word) : RecordLength.Statement (.intCauseWrite value) := fun _ _ hd => nomatch hd

theorem RecordLength.intMaskWrite (value : Word) : RecordLength.Statement (.intMaskWrite value) := fun _ _ hd => nomatch hd

theorem RecordLength.msiEnableWrite (enabled : Bool) : RecordLength.Statement (.msiEnableWrite enabled) := fun _ _ hd => nomatch hd

theorem RecordLength.setupAddrWrite (half : AddrHalf) (value : Word) : RecordLength.Statement (.setupAddrWrite half value) := fun _ _ hd => nomatch hd

theorem RecordLength.tailWrite (ring : RingId) (value : Word) : RecordLength.Statement (.tailWrite ring value) := fun _ _ hd => nomatch hd

theorem RecordLength.cplHeadWrite (value : Word) : RecordLength.Statement (.cplHeadWrite value) := fun _ _ hd => nomatch hd

theorem RecordLength.registerWriteOther (offset : BitVec 12) (width : Nat) (value : Word) : RecordLength.Statement (.registerWriteOther offset width value) := fun _ _ hd => nomatch hd

theorem RecordLength.setupReadDone (data : List Byte) : RecordLength.Statement (.setupReadDone data) := fun _ _ hd => nomatch hd

theorem RecordLength.setupReadError (reason : ReadError) : RecordLength.Statement (.setupReadError reason) := fun _ _ hd => nomatch hd

theorem RecordLength.hostReadTimeout (read : HostRead) : RecordLength.Statement (.hostReadTimeout read) := fun _ _ hd => nomatch hd

theorem RecordLength.fetchReadError (ring : RingId) (reason : ReadError) : RecordLength.Statement (.fetchReadError ring reason) := fun _ _ hd => nomatch hd

theorem RecordLength.drainFinish : RecordLength.Statement .drainFinish := fun _ _ hd => nomatch hd

theorem RecordLength.creditGrant : RecordLength.Statement .creditGrant := fun _ _ hd => nomatch hd

theorem RecordLength.captureRecordRead (data : List Byte) : RecordLength.Statement (.captureRecordRead data) := fun _ _ hd => nomatch hd

theorem RecordLength.bufferEntryRead (data : List Byte) : RecordLength.Statement (.bufferEntryRead data) := fun _ _ hd => nomatch hd

theorem RecordLength.mark (tag : Word) : RecordLength.Statement (.mark tag) := by
  intro h data hd
  simp only [encodeControl, Option.some.injEq] at hd
  subst hd
  apply recordOf_length
  simp

theorem RecordLength.badRecord (kind : Byte) (tag : Word) : RecordLength.Statement (.badRecord kind tag) := by
  intro h data hd
  simp only [encodeControl, Option.some.injEq] at hd
  subst hd
  apply recordOf_length
  simp

theorem RecordLength.windowSet (tag : Word) (number : Half) (window : WindowDef) : RecordLength.Statement (.windowSet tag number window) := by
  intro h data hd
  simp only [encodeControl, Option.some.injEq] at hd
  subst hd
  apply recordOf_length
  simp

theorem RecordLength.windowClear (tag : Word) (number : Half) : RecordLength.Statement (.windowClear tag number) := by
  intro h data hd
  simp only [encodeControl, Option.some.injEq] at hd
  subst hd
  apply recordOf_length
  simp

theorem RecordLength.orderSet (tag : Word) (values : List Byte) : RecordLength.Statement (.orderSet tag values) := by
  intro h data hd
  simp only [encodeControl, Option.some.injEq] at hd
  subst hd
  apply recordOf_length
  simp only [Instr.WellFormed, beq_iff_eq] at h
  omega

theorem RecordLength.sensorWriteNow (tag : Word) (address : Half) (value : Half) : RecordLength.Statement (.sensorWriteNow tag address value) := by
  intro h data hd
  simp only [encodeControl, Option.some.injEq] at hd
  subst hd
  apply recordOf_length
  simp

theorem RecordLength.sensorWriteStaged (tag : Word) (address : Half) (value : Half) : RecordLength.Statement (.sensorWriteStaged tag address value) := by
  intro h data hd
  simp only [encodeControl, Option.some.injEq] at hd
  subst hd
  apply recordOf_length
  simp

theorem RecordLength.sensorRead (tag : Word) (address : Half) : RecordLength.Statement (.sensorRead tag address) := by
  intro h data hd
  simp only [encodeControl, Option.some.injEq] at hd
  subst hd
  apply recordOf_length
  simp

theorem RecordLength.sensorPowerOff (tag : Word) (replay : Bool) : RecordLength.Statement (.sensorPowerOff tag replay) := by
  intro h data hd
  simp only [encodeControl, Option.some.injEq] at hd
  subst hd
  apply recordOf_length
  simp

theorem RecordLength.sensorPowerOn (tag : Word) (replay : Bool) : RecordLength.Statement (.sensorPowerOn tag replay) := by
  intro h data hd
  simp only [encodeControl, Option.some.injEq] at hd
  subst hd
  apply recordOf_length
  simp

theorem RecordLength.sensorPowerCycle (tag : Word) (replay : Bool) : RecordLength.Statement (.sensorPowerCycle tag replay) := by
  intro h data hd
  simp only [encodeControl, Option.some.injEq] at hd
  subst hd
  apply recordOf_length
  simp

theorem RecordLength.flushStaged (tag : Word) : RecordLength.Statement (.flushStaged tag) := by
  intro h data hd
  simp only [encodeControl, Option.some.injEq] at hd
  subst hd
  apply recordOf_length
  simp

theorem RecordLength.discardStaged (tag : Word) : RecordLength.Statement (.discardStaged tag) := by
  intro h data hd
  simp only [encodeControl, Option.some.injEq] at hd
  subst hd
  apply recordOf_length
  simp

theorem RecordLength.stopTag (tag : Word) (request : Word) (mode : StopKind) : RecordLength.Statement (.stopTag tag request mode) := by
  intro h data hd
  simp only [encodeControl, Option.some.injEq] at hd
  subst hd
  apply recordOf_length
  simp

theorem RecordLength.stopAll (tag : Word) (request : Word) (mode : StopKind) : RecordLength.Statement (.stopAll tag request mode) := by
  intro h data hd
  simp only [encodeControl, Option.some.injEq] at hd
  subst hd
  apply recordOf_length
  simp

theorem RecordLength.frameBegin : RecordLength.Statement .frameBegin := fun _ _ hd => nomatch hd

theorem RecordLength.triggerTransition (step : TriggerStep) : RecordLength.Statement (.triggerTransition step) := fun _ _ hd => nomatch hd

theorem RecordLength.intervalTick : RecordLength.Statement .intervalTick := fun _ _ hd => nomatch hd

theorem RecordLength.triggerTimeoutExpiry (ctx : CtxId) : RecordLength.Statement (.triggerTimeoutExpiry ctx) := fun _ _ hd => nomatch hd

theorem RecordLength.leadExpiry (ctx : CtxId) : RecordLength.Statement (.leadExpiry ctx) := fun _ _ hd => nomatch hd

theorem RecordLength.exposureTimerExpiry (ctx : CtxId) : RecordLength.Statement (.exposureTimerExpiry ctx) := fun _ _ hd => nomatch hd

theorem RecordLength.frameStart (number : Byte) : RecordLength.Statement (.frameStart number) := fun _ _ hd => nomatch hd

theorem RecordLength.line (number : Half) (pixels : List Half) (check : Half) : RecordLength.Statement (.line number pixels check) := fun _ _ hd => nomatch hd

theorem RecordLength.frameEnd (count : Half) : RecordLength.Statement (.frameEnd count) := fun _ _ hd => nomatch hd

theorem RecordLength.unknownPacket : RecordLength.Statement .unknownPacket := fun _ _ hd => nomatch hd

theorem RecordLength.frameTimerExpiry : RecordLength.Statement .frameTimerExpiry := fun _ _ hd => nomatch hd

theorem RecordLength.sliceOffer : RecordLength.Statement .sliceOffer := fun _ _ hd => nomatch hd

theorem RecordLength.sliceWriteDone : RecordLength.Statement .sliceWriteDone := fun _ _ hd => nomatch hd

theorem RecordLength.framePost (ctx : CtxId) : RecordLength.Statement (.framePost ctx) := fun _ _ hd => nomatch hd

theorem RecordLength.requestEnd : RecordLength.Statement .requestEnd := fun _ _ hd => nomatch hd

theorem RecordLength.coalescingTimerExpiry : RecordLength.Statement .coalescingTimerExpiry := fun _ _ hd => nomatch hd

theorem RecordLength.sensorAck (value : Half) : RecordLength.Statement (.sensorAck value) := fun _ _ hd => nomatch hd

theorem RecordLength.ackTimeout : RecordLength.Statement .ackTimeout := fun _ _ hd => nomatch hd

theorem RecordLength.settleTimerExpiry : RecordLength.Statement .settleTimerExpiry := fun _ _ hd => nomatch hd

theorem RecordLength.sensorPowerBadField (tag : Word) (action : Byte) : RecordLength.Statement (.sensorPowerBadField tag action) := by
  intro h data hd
  simp only [encodeControl, Option.some.injEq] at hd
  subst hd
  apply recordOf_length
  simp

end Sys2Proof.Laws
end

