-- ==== Sys2Proof/Tests/Slice0.lean ====
section
/-! SUPPORT. The tests: ill-formed terms that WellFormed refuses, record bytes written out from Tables 75 to 80, one step of
each command with the result its rule gives, and for each statement a state and operands that meet its hypotheses. -/

set_option Elab.async false

namespace Sys2Proof.Tests

open Sys2Proof Sys2Proof.Machine

/-! ## Small states -/

/-- Geometry and rings at the smallest values of Table 59: 16 columns, 2 lines, 8 bits. -/
def setup0 : Setup where
  control := { addr := 0x1000, size := 16 }
  capture := { addr := 0x2000, size := 16 }
  buffer := { addr := 0x3000, size := 16 }
  completion := { addr := 0x4000, size := 32 }
  progress := 0x5000
  columns := 16
  lines := 2
  depth := 8
  frameTimeout := 1
  settleTime := 1
  coalesceCount := 1
  coalesceDelay := 0

/-- The Setup Block of `setup0`, byte by byte after Table 78. -/
def setupData : List Byte :=
  [0x00, 0x10, 0, 0, 0, 0, 0, 0, 0x00, 0x20, 0, 0, 0, 0, 0, 0, 0x00, 0x30, 0, 0, 0, 0, 0, 0, 0x00, 0x40, 0, 0, 0, 0, 0, 0,
    0x00, 0x50, 0, 0, 0, 0, 0, 0, 16, 0, 16, 0, 16, 0, 32, 0, 16, 0, 2, 0, 8, 1, 1, 0, 1, 0, 0, 0, 0, 0, 0, 0]

/-- The same with a pixel depth of 9. -/
def badSetupData : List Byte := setupData.set 52 9

/-- A timer that is due at every Timebase value. -/
def due : Timer := { started := 0, duration := 0 }

/-- A timer that is not due at Timebase 0. -/
def later : Timer := { started := 0, duration := 1 }

/-- A host read with this limit. -/
def readWith (limit : Timer) : ReadInProgress := { addr := 0x1000, bytes := 64, timer := limit }

/-- RUNNING, the Setup Block held, the sensor READY. -/
def running : State :=
  { State.reset with
    link := { State.reset.link with enable := true, part := .running }
    ring := { State.reset.ring with setup := some setup0 }
    sensor := { State.reset.sensor with power := .ready, enableOut := true } }

/-- RUNNING with the read of a control record in progress. -/
def reading : State :=
  { running with
    ring := { running.ring with ctlRead := some (readWith later), ctlTail := 1 }
    engine := { mode := .waitCredit, credit := .held, job := none } }

/-- The state with the sensor in a power state. -/
def powered (p : PowerState) (s : State) : State :=
  { s with
    sensor :=
      { s.sensor with
        power := p
        enableOut := decide (p ≠ .off)
        settle := if p = .settling then some due else none } }

/-- The state with this part state. -/
def inPart (p : PartState) (s : State) : State := { s with link := { s.link with part := p } }

/-- A whole-sensor window. -/
def window0 : WindowDef :=
  { x := 0, y := 0, width := 16, height := 2, skipX := 1, skipY := 1, mosaic := false, format := .native }

/-- The state with `window0` as window 15, with a reference count. -/
def withWindow (refs : Nat) (s : State) : State :=
  { s with cutter := { s.cutter with windows := s.cutter.windows.set 15 { window := some window0, refs := refs } } }

/-- A request for one frame of window 15, exposed for 10 microseconds. -/
def request (source : StartSource) : CaptureRequest where
  windows := [15]
  frames := 1
  source := source
  falling := false
  exposure := 10
  interval := 1000
  strobe := false
  lead := 0
  skip := false
  discard := false
  overlap := false
  timeout := 0

/-- A queued request with no mark. -/
def entry (source : StartSource) : Entry where
  tag := 7
  form := .valid (request source)
  mark := .none
  begun := 0
  ended := 0
  good := 0
  skipped := 0
  missed := 0

/-- A buffer that just holds `window0`: 32 bytes of pixels, in the smallest buffer. -/
def buffer0 : BufferRef := { tag := 9, addr := 0x10000, length := 64 }

/-- A frame in a phase, its one window's buffer assigned, its credit held. -/
def frame (p : Phase) : Frame where
  phase := p
  index := 0
  assignments := [{ window := 15, buffer := some buffer0, written := 0, byteSize := 32, result := none }]
  slots := 1
  creditHeld := true
  returnAsked := false
  expStart := none
  actual := none
  endPending := false
  generation := none
  sensorFrame := none
  badLines := 0
  missingLines := 0
  missed := 0
  flags := {}
  timedOut := false
  outcome := none
  leadTimer := none
  expTimer := none
  trigTimer := none

/-- A frame whose assignment waits for a buffer. -/
def unserved : Frame :=
  { frame .reserving with
    assignments := [{ window := 15, buffer := none, written := 0, byteSize := 32, result := none }] }

/-- A cached buffer entry. -/
def cached : CacheEntry := { addr := 0x10000, length := 64, tag := 9, valid := true, position := 0 }

/-- RUNNING with one request of a start source active and these contexts. -/
def active (source : StartSource) (c0 c1 : Option Frame) : State :=
  { running with
    sched := { running.sched with queue := [entry source] }
    seq := { running.seq with ctx0 := c0, ctx1 := c1 } }

/-- A readout of context 0 with the receiver in a state. -/
def readout (r : ReceiverState) (c1 : Option Frame) : State :=
  { active .software (some (frame .readout)) c1 with
    recv := { state := r, served := some .c0, expected := 0, timer := some due, stray := 0 } }

/-- A staged entry. -/
def staged0 : Staged := { address := 3, value := 5, tag := 6, inProgress := false }

/-- The state with these staged entries. -/
def withStaged (l : List Staged) (s : State) : State := { s with sensor := { s.sensor with staged := l } }

/-- The state with a transaction on the port. -/
def withPort (owner : PortOwner) (op : PortOp) (s : State) : State :=
  { s with sensor := { s.sensor with port := some { owner := owner, op := op, timer := due } } }

/-- The state with a record in hand. -/
def withJob (w : Work) (s : State) : State :=
  { s with engine := { mode := .executing, credit := .held, job := some { tag := 8, work := w } } }

/-- The state one microsecond after a reset. -/
def atOne (s : State) : State := { s with now := 1 }

/-- The TRIGGER pin has gone high at the Timebase value 0 (R185). -/
def pinHigh (s : State) : State :=
  { s with seq := { s.seq with pin := .high, hold := some { started := 0, duration := 1 } } }

theorem quiet_of (s : State) (h1 : s.sensor.replayWaits = false) (h2 : s.sensor.flushWaits = false)
    (h3 : s.sensor.engineWaits = false) (h4 : s.engine.job.all (fun j => decide (j.work ≠ .flush)) = true) :
    s.portQuiet := ⟨.inr ⟨h1, h2, h3⟩, h4⟩

/-- The next state of a command; the state itself where there is none. -/
def after (c : Instr) (s : State) : State :=
  match exec c s with
  | .next t => t
  | _ => s

/-- The outcome is a next state. -/
def isNext (o : Host.Outcome State Fault Refusal) : Bool :=
  match o with
  | .next _ => true
  | _ => false

/-! ## WellFormed refuses (R182, R184, Tables 75 to 78) -/

theorem test_ill_register_write : Instr.WellFormed (.registerWriteOther 0x28 4 0) = false := by decide
theorem test_ill_setup_length : Instr.WellFormed (.setupReadDone [0]) = false := by decide
theorem test_ill_capture_length : Instr.WellFormed (.captureRecordRead []) = false := by decide
theorem test_ill_buffer_length : Instr.WellFormed (.bufferEntryRead []) = false := by decide
theorem test_ill_bad_record_kind : Instr.WellFormed (.badRecord 0x0A 0) = false := by decide
theorem test_ill_order_length : Instr.WellFormed (.orderSet 0 [0]) = false := by decide
theorem test_ill_power_action : Instr.WellFormed (.sensorPowerBadField 0 3) = false := by decide
theorem test_ill_line_length (l : List Half) (h : l.length = 65536) : Instr.WellFormed (.line 0 l 0) = false := by
  simp [Instr.WellFormed, h]

/-! ## Records written out from Tables 75 to 80 -/

/-- 64 bytes that begin with these. -/
def bytes64 (l : List Byte) : List Byte := l ++ List.replicate (64 - l.length) 0

theorem test_decode_mark : decodeControl (bytes64 [1, 0, 0, 0, 0x78, 0x56, 0x34, 0x12]) = .mark 0x12345678 := by decide
theorem test_decode_bad_record : decodeControl (bytes64 [0x0B, 0, 0, 0, 1]) = .badRecord 0x0B 1 := by decide
theorem test_decode_window_set :
    decodeControl (bytes64 [2, 0, 0, 0, 1, 0, 0, 0, 3, 0, 16, 1, 8, 0, 64, 0, 32, 0, 2, 0, 4, 0, 3]) =
      .windowSet 1 3
        { x := 0x110, y := 8, width := 64, height := 32, skipX := 2, skipY := 4, mosaic := true, format := .top8 } := by
  decide
theorem test_decode_window_clear : decodeControl (bytes64 [3, 0, 0, 0, 1, 0, 0, 0, 15]) = .windowClear 1 15 := by decide
theorem test_decode_order_set :
    decodeControl (bytes64 [4, 0, 0, 0, 1, 0, 0, 0, 15, 14, 13, 12, 11, 10, 9, 8, 7, 6, 5, 4, 3, 2, 1, 0]) =
      .orderSet 1 [15, 14, 13, 12, 11, 10, 9, 8, 7, 6, 5, 4, 3, 2, 1, 0] := by decide
theorem test_decode_write_now :
    decodeControl (bytes64 [5, 0, 0, 0, 1, 0, 0, 0, 0xFF, 1, 0x34, 0x12, 0]) = .sensorWriteNow 1 511 0x1234 := by decide
theorem test_decode_write_staged :
    decodeControl (bytes64 [5, 0, 0, 0, 1, 0, 0, 0, 0xFF, 1, 0x34, 0x12, 1]) = .sensorWriteStaged 1 511 0x1234 := by decide
theorem test_decode_read : decodeControl (bytes64 [6, 0, 0, 0, 1, 0, 0, 0, 0, 2]) = .sensorRead 1 512 := by decide
theorem test_decode_power_off : decodeControl (bytes64 [7, 0, 0, 0, 1, 0, 0, 0, 1, 0]) = .sensorPowerOff 1 false := by decide
theorem test_decode_power_on : decodeControl (bytes64 [7, 0, 0, 0, 1, 0, 0, 0, 2, 1]) = .sensorPowerOn 1 true := by decide
theorem test_decode_power_cycle : decodeControl (bytes64 [7, 0, 0, 0, 1, 0, 0, 0, 3, 1]) = .sensorPowerCycle 1 true := by
  decide
theorem test_decode_power_bad : decodeControl (bytes64 [7, 0, 0, 0, 1, 0, 0, 0, 4]) = .sensorPowerBadField 1 4 := by decide
theorem test_decode_flush : decodeControl (bytes64 [8, 0, 0, 0, 1]) = .flushStaged 1 := by decide
theorem test_decode_discard : decodeControl (bytes64 [9, 0, 0, 0, 1]) = .discardStaged 1 := by decide
theorem test_decode_stop_tag :
    decodeControl (bytes64 [10, 0, 0, 0, 1, 0, 0, 0, 2, 0, 0, 0, 5]) = .stopTag 1 5 .abort := by decide
theorem test_decode_stop_all :
    decodeControl (bytes64 [10, 0, 0, 0, 1, 0, 0, 0, 1, 0, 0, 0, 5]) = .stopAll 1 5 .graceful := by decide

/-- Table 78. -/
theorem test_parse_setup : parseSetup setupData = setup0 := by decide
/-- Table 75: window 15, tag 7, one frame, EDGE falling with overlap, 10 microseconds. -/
theorem test_parse_capture :
    checkCapture setup0 (withWindow 0 running).cutter.windows
        (bytes64 [1, 1, 15, 0, 0, 0, 0, 0, 7, 0, 0, 0, 1, 0, 1, 0x11, 10]) =
      .ok { request .edge with falling := true, overlap := true, interval := 0 } := by decide
/-- Table 77. -/
theorem test_parse_buffer :
    parseBuffer 0 [0, 0, 1, 0, 0, 0, 0, 0, 64, 0, 0, 0, 9, 0, 0, 0] = cached := by decide
/-- Table 80: the first bytes of a CONTROL slot, and the phase in bit 0 of byte 63. -/
theorem test_control_slot :
    (slotBytes true (controlBytes { kind := 6, tag := 0x01020304, status := .done, read := 0xABCD })).take 10 =
        [4, 6, 0, 0, 4, 3, 2, 1, 0xCD, 0xAB] ∧
      (slotBytes true (controlBytes { kind := 6, tag := 0, status := .done }))[63]? = some 1 := by decide

/-- R183, Table 80: a FRAME of three windows at the last slot: its FRAME_CONT goes first, to slot 0 with the phase inverted. -/
theorem test_frame_slots :
    slotWrites setup0 (31, true) (.frame
        { tag := 0x0A0B0C0D, index := 258, outcome := .stopped, flags := { latchedStart := true, discard := true }
          assignments :=
            [{ window := 5, buffer := some { tag := 7, addr := 0, length := 64 }, written := 64, byteSize := 64,
               result := some .complete },
             { window := 2, buffer := none, written := 0, byteSize := 64, result := some .noBuffer },
             { window := 9, buffer := some { tag := 8, addr := 64, length := 64 }, written := 16, byteSize := 64,
               result := some .partialRows }]
          expStart := some 0x0102030405, actual := some 1000, generation := some 3, sensorFrame := none, badLines := 1
          missingLines := 2, missed := 3, stray := 4 }) =
      [.memory setup0.completion.addr
        ([2, 0, 0, 0, 0x0D, 0x0C, 0x0B, 0x0A, 2, 1, 0, 0, 9, 1, 8, 0, 0, 0, 16, 0, 0, 0] ++
          [0, 3, 0, 0, 0, 0, 0, 0, 0, 0] ++ [0, 3, 0, 0, 0, 0, 0, 0, 0, 0] ++ [0, 3, 0, 0, 0, 0, 0, 0, 0, 0] ++
          List.replicate 12 0),
       .memory (setup0.completion.addr + 1984)
        ([1, 3, 2, 0x42, 0x0D, 0x0C, 0x0B, 0x0A, 2, 1, 0, 2, 3, 0, 0, 0, 5, 4, 3, 2, 1, 0, 0, 0, 0xE8, 3, 0, 0] ++
          [1, 0, 2, 0, 3, 0, 4, 0] ++ [5, 0, 7, 0, 0, 0, 64, 0, 0, 0] ++ [2, 3, 0, 0, 0, 0, 0, 0, 0, 0] ++
          List.replicate 7 0 ++ [1])] := by decide
/-- R183, Table 79. -/
theorem test_progress_block :
    progressWrite setup0 0x0102 3 4 = .memory setup0.progress [2, 1, 3, 0, 4, 0, 0, 0, 0, 0, 0, 0, 0, 0, 0, 0] := by
  decide

/-! ## One step of each command -/

/-- R185. -/
theorem test_power_on_takes_the_pin : (after (.powerOn .high) running).seq.trigger = .high := by decide
/-- R180. -/
theorem test_function_reset_forgets_the_setup : (after (.functionReset .low) running).ring.setup = none := by decide
/-- R180: PartReset keeps the message interrupt enable. -/
theorem test_part_reset_keeps_msi :
    (after (.partReset true .low) (after (.msiEnableWrite true) running)).link.msi = true ∧
      (after (.functionReset .low) (after (.msiEnableWrite true) running)).link.msi = false := by decide
/-- R146, R154, R174: 64 bytes at the address that both SETUP_ADDR words give. -/
theorem test_enable_set_starts :
    (after .enableSet (after (.setupAddrWrite .hi 2) (after (.setupAddrWrite .lo 0x40) State.reset))).ring.setupRead =
      some { addr := 0x200000040, bytes := 64, timer := { started := 0, duration := 50000 } } := by decide
/-- R146: a SETUP_ADDR that is no multiple of 64. -/
theorem test_enable_set_halts_on_setup_address :
    (after .enableSet (after (.setupAddrWrite .lo 32) State.reset)).link.haltDetail = .setupAddress := by decide
/-- R176. -/
theorem test_enable_clear_drains : (after .enableClear running).link.part = .draining := by decide
/-- R179. -/
theorem test_enable_clear_leaves_halted : (after .enableClear (inPart .halted running)).link.part = .disabled := by decide
/-- R170: one clears. -/
theorem test_int_cause_clears :
    (after (.intCauseWrite 2) { running with
      cpl := { running.cpl with cause := { completion := true, halt := true, badIndex := true } } }).cpl.cause =
      { completion := true, halt := false, badIndex := true } := by decide
/-- R171: the line follows the signalling condition. -/
theorem test_int_mask_raises_the_line :
    (after (.intMaskWrite 4) { running with
      cpl := { running.cpl with cause := { completion := false, halt := false, badIndex := true } } }).link.line = true := by
  decide
/-- R150: the ring's size is out of range and sets BAD_INDEX. -/
theorem test_tail_write_range :
    (after (.tailWrite .capture 16) running).cpl.cause.badIndex = true ∧
      (after (.tailWrite .capture 15) running).ring.capTail = 15 := by decide
/-- R144, R153: the entry at head 2 of a ring at 3000H is 16 bytes at 3020H. -/
theorem test_tail_write_reads_at_the_head :
    (after (.tailWrite .buffer 4) { running with ring := { running.ring with bufHead := 2 } }).ring.bufRead =
      some { addr := 0x3020, bytes := 16, timer := { started := 0, duration := 50000 } } := by decide
/-- R168. -/
theorem test_cpl_head_range : (after (.cplHeadWrite 1) running).cpl.cause.badIndex = true := by decide
/-- R184. -/
theorem test_register_write_other : after (.registerWriteOther 0x08 4 1) running = running := by decide
/-- R175. -/
theorem test_setup_read_runs : (after (.setupReadDone setupData) (after .enableSet State.reset)).link.part = .running := by
  decide
/-- Table 59, check 8. -/
theorem test_setup_read_rejects_depth :
    (after (.setupReadDone badSetupData) (after .enableSet State.reset)).link.haltDetail = .depth := by decide
/-- R146. -/
theorem test_setup_read_error :
    (after (.setupReadError .poisoned) (after .enableSet State.reset)).link.haltCause = .setupRead := by decide
/-- R154: not before 50 ms. -/
theorem test_host_read_timeout :
    (after (.hostReadTimeout .setup) (after .enableSet State.reset)).link.part = .starting ∧
      (after (.hostReadTimeout .setup) { after .enableSet State.reset with now := 50000 }).link.part = .halted := by decide
/-- R154, R178. -/
theorem test_fetch_read_error :
    (after (.fetchReadError .control .unsupported) reading).link.haltCause = .fetchRead ∧
      (after (.fetchReadError .control .unsupported) reading).link.haltDetail = .controlRing := by decide
/-- R177. -/
theorem test_drain_finish : (after .drainFinish (after .enableClear running)).link.part = .disabled := by decide
/-- R133, R165. -/
theorem test_credit_grant_begins_the_read :
    (after .creditGrant (after (.tailWrite .control 1) running)).ring.ctlRead =
      some { addr := 0x1000, bytes := 64, timer := { started := 0, duration := 50000 } } := by decide
/-- R4, R8. -/
theorem test_capture_record_pins_its_window :
    (windowAt (after (.captureRecordRead (bytes64 [1, 1, 15, 0, 0, 0, 0, 0, 7, 0, 0, 0, 1, 0, 0, 0, 10]))
      { withWindow 0 running with ring := { running.ring with capRead := some (readWith later) } }).cutter.windows 15).refs = 1 := by
  decide
/-- R12, R37: the first tick of an INTERVAL request under LATCH sets the latch, and the next comes an interval later. -/
theorem test_first_tick_is_early :
    let t := after (.captureRecordRead (bytes64
        [1, 1, 15, 0, 0, 0, 0, 0, 7, 0, 0, 0, 1, 0, 3, 0, 10, 0, 0, 0, 0xE8, 3]))
      { withWindow 0 running with ring := { running.ring with capRead := some (readWith later) } }
    t.seq.latch = true ∧ t.sched.interval = some { started := 0, duration := 1000 } := by decide
/-- Table 8, check 7. -/
theorem test_capture_record_rejects_exposure :
    (after (.captureRecordRead (bytes64 [1, 1, 15, 0, 0, 0, 0, 0, 7, 0, 0, 0, 1, 0, 0, 0, 9]))
      { withWindow 0 running with ring := { running.ring with capRead := some (readWith later) } }).sched.queue.map Entry.form =
      [.rejected .exposureTime] := by decide
/-- R94. -/
theorem test_buffer_entry_is_cached :
    (after (.bufferEntryRead [0, 0, 1, 0, 0, 0, 0, 0, 64, 0, 0, 0, 9, 0, 0, 0])
      { running with ring := { running.ring with bufRead := some (readWith later) } }).bufs.cache = [cached] := by decide
/-- R138, R160. -/
theorem test_mark_writes_its_slot :
    (after (.mark 3) reading).link.issued.map (fun w => match w with
      | .memory a d => (a, d.take 8)
      | .message => (0, [])) = [(0x5000, [1, 0, 0, 0, 0, 0, 0, 0]), (0x4000, [4, 1, 0, 0, 3, 0, 0, 0])] := by decide
/-- R169, R171: of two completions gathered the first starts the timer, the second sets COMPLETION and sends the message. -/
theorem test_mark_is_counted :
    ([0, 1].map fun n =>
      let s := after (.mark 3) { reading with
        ring := { reading.ring with setup := some { setup0 with coalesceCount := 2, coalesceDelay := 7 } }
        link := { reading.link with msi := true }
        cpl := { reading.cpl with unsignalled := n, mask := Causes.onlyCompletion } }
      (s.cpl.unsignalled, s.cpl.timer.map Timer.duration, s.cpl.cause.completion, s.link.issued.getLast?)) =
        [(1, some 7, false, some (after (.mark 3) reading).link.issued[1]), (0, none, true, some .message)] := by decide
/-- R135. -/
theorem test_bad_record_is_taken : (after (.badRecord 0xFF 3) reading).cpl.tail = 1 := by decide
/-- R60. -/
theorem test_window_set_defines : (windowAt (after (.windowSet 3 2 window0) reading).cutter.windows 2).window =
    some window0 := by decide
/-- R61. -/
theorem test_window_clear_empties :
    (windowAt (after (.windowClear 3 15) (withWindow 0 reading)).cutter.windows 15).window = none := by decide
/-- R61, Table 23: a pinned window stays. -/
theorem test_window_clear_in_use :
    (windowAt (after (.windowClear 3 15) (withWindow 1 reading)).cutter.windows 15).window = some window0 := by decide
/-- R68. -/
theorem test_order_set_stores :
    (after (.orderSet 3 [1, 0, 2, 3, 4, 5, 6, 7, 8, 9, 10, 11, 12, 13, 14, 15]) reading).cutter.order.take 3 = [1, 0, 2] := by
  decide
/-- R109. -/
theorem test_write_now_begins :
    (after (.sensorWriteNow 3 4 5) reading).sensor.port.map Transaction.op = some (.write 4 5) := by decide
/-- R114: the reserved slot goes to the staged entry. -/
theorem test_write_staged_keeps_its_slot :
    (after (.sensorWriteStaged 3 4 5) reading).sensor.staged.length = 1 ∧
      (after (.sensorWriteStaged 3 4 5) reading).cpl.tail = 0 := by decide
/-- R113. -/
theorem test_read_begins : (after (.sensorRead 3 4) reading).sensor.port.map Transaction.op = some (.read 4) := by decide
/-- R126. -/
theorem test_power_off_stales_the_mirror :
    (after (.sensorPowerOff 3 false)
      { reading with sensor := { reading.sensor with mirror := [(4, { stale := false, value := 5 })] } }).sensor.mirror =
      [(4, { stale := true, value := 5 })] := by decide
/-- R124: the settle timer in milliseconds. -/
theorem test_power_on_settles :
    (after (.sensorPowerOn 3 true) (powered .off reading)).sensor.settle = some { started := 0, duration := 1000 } := by decide
/-- R127. -/
theorem test_power_cycle_settles : (after (.sensorPowerCycle 3 true) reading).sensor.power = .settling := by decide
/-- R136. -/
theorem test_power_bad_field : (after (.sensorPowerBadField 3 0) reading).cpl.tail = 1 := by decide
/-- R117. -/
theorem test_flush_takes_the_first_entry :
    (after (.flushStaged 3) (withStaged [staged0] reading)).sensor.staged = [{ staged0 with inProgress := true }] := by decide
/-- R121. -/
theorem test_discard_completes_both :
    (after (.discardStaged 3) (withStaged [staged0] reading)).sensor.staged = [] ∧
      (after (.discardStaged 3) (withStaged [staged0] reading)).cpl.tail = 2 := by decide
/-- R22, R48. -/
theorem test_stop_tag_graceful :
    (after (.stopTag 3 7 .graceful)
      { active .edge (some (frame .waitStart)) none with ring := reading.ring, engine := reading.engine }).seq.ctx0.bind
      Frame.outcome = some .stopped := by decide
/-- R23, R24. -/
theorem test_stop_all_marks_the_queue :
    (after (.stopAll 3 0 .graceful)
      { reading with
        ring := { reading.ring with capTail := 5 }
        sched := { reading.sched with queue := [entry .edge, entry .edge] } }).sched.queue.map Entry.mark =
      [.none, .flushed] := by decide
/-- R28. -/
theorem test_frame_begin_reserves :
    (after .frameBegin (active .software none none)).seq.ctx0.map (fun f => (f.phase, f.slots)) = some (.reserving, 1) := by
  decide
/-- R35, R39. -/
theorem test_trigger_starts_the_exposure :
    (after (.triggerTransition .held) (atOne (pinHigh (active .edge (some (frame .waitStart)) none)))).seq.expose = true := by
  decide
/-- R185: neither transition of a pulse shorter than 1 µs reaches the Sequencer. -/
theorem test_trigger_filter_drops_a_pulse :
    (after (.triggerTransition .held) (atOne (after (.triggerTransition (.pin .low)) (pinHigh (active .edge none none))))).seq
      = (active .edge none none).seq := by decide
/-- R185: the transition occurs 1 µs after the pin changed, and not before. -/
theorem test_trigger_filter_holds :
    (after (.triggerTransition .held) (pinHigh running)).seq.trigger = .low ∧
      (after (.triggerTransition .held) (atOne (pinHigh running))).seq.trigger = .high := by decide
/-- R177, Table 49: a transaction that a halt left behind holds no drain up, and the port is free after it. -/
theorem test_drain_frees_the_port :
    (after .drainFinish (inPart .draining (withPort .cleared (.read 1) running))).link.part = .starting ∧
      (after .drainFinish (inPart .draining (withPort .cleared (.read 1) running))).sensor.port = none := by decide
/-- Table 49: at entry to STARTING no flush is in progress, and the port is kept. -/
theorem test_start_leaves_no_flush :
    (after .enableSet { withPort .flush (.write 3 5) State.reset with
      sensor := { (withPort .flush (.write 3 5) State.reset).sensor with flush := some { generation := 1, taken := 1 } } }
      ).sensor = (withPort (.leftFlush 1) (.write 3 5) State.reset).sensor := by decide
/-- R12. -/
theorem test_interval_tick_goes_on :
    (after .intervalTick
      { active .interval (some (frame .waitStart)) none with
        sched :=
          { running.sched with
            queue := [{ entry .interval with form := .valid { request .interval with frames := 2 } }]
            interval := some due } }).sched.interval =
      some { started := 0, duration := 1000 } := by decide
/-- R36. -/
theorem test_trigger_timeout_ends :
    (after (.triggerTimeoutExpiry .c0)
      (active .edge (some { frame .waitStart with trigTimer := some due }) none)).sched.endCause = some .triggerTimeout := by
  decide
/-- R39. -/
theorem test_lead_exposes :
    (after (.leadExpiry .c0) (active .edge (some { frame .lead with leadTimer := some due }) none)).seq.expose = true := by
  decide
/-- R44, R77. -/
theorem test_exposure_end_expects :
    (after (.exposureTimerExpiry .c0)
      (active .software (some { frame .exposing with expTimer := some due }) none)).recv.timer =
      some { started := 0, duration := 1000 } := by decide
/-- Table 32. -/
theorem test_frame_start_receives : (after (.frameStart 5) (readout .expecting none)).recv.state = .receiving := by decide
/-- R80 to R82: a line of the right length and check value is cut into one slice of 16 bytes. -/
theorem test_line_is_cut :
    (after (.line 0 (List.replicate 16 1) 16) (withWindow 1 (readout .receiving none))).cutter.inHand =
      [{ ctx := .c0, position := 0, offset := 0, data := List.replicate 16 1 }] := by decide
/-- R82: a wrong check value makes a bad line. -/
theorem test_line_bad_check :
    (after (.line 0 (List.replicate 16 1) 15) (withWindow 1 (readout .receiving none))).seq.ctx0.map Frame.badLines =
      some 1 := by decide
/-- R84, Table 16. -/
theorem test_frame_end_short :
    (after (.frameEnd 2) (readout .receiving none)).seq.ctx0.map (fun f => (f.missingLines, f.outcome)) =
      some (2, some .sequence) := by decide
/-- R86. -/
theorem test_unknown_packet_is_stray : (after .unknownPacket running).recv.stray = 1 := by decide
/-- R85. -/
theorem test_frame_timer_times_out :
    (after .frameTimerExpiry (readout .expecting none)).seq.ctx0.bind Frame.outcome = some .timeout := by decide
/-- R101. -/
theorem test_slice_is_admitted :
    (after .sliceOffer { readout .receiving none with
      cutter := { running.cutter with inHand := [{ ctx := .c0, position := 0, offset := 0, data := [1] }] } }).store.slices =
      [{ ctx := .c0, position := 0, offset := 0, data := [1] }] := by decide
/-- R71, R103: the buffer's address plus the slice's offset. -/
theorem test_slice_is_written :
    (after .sliceWriteDone { readout .receiving none with
      store := { slices := [{ ctx := .c0, position := 0, offset := 16, data := [1, 2] }] } }).link.issued =
      [.memory 0x10010 [1, 2]] := by decide
/-- R14, R46. -/
theorem test_frame_post_frees :
    (after (.framePost .c0) (active .software (some { frame .closing with outcome := some .good }) none)).seq.ctx0 = none ∧
      (after (.framePost .c0) (active .software (some { frame .closing with outcome := some .good }) none)).cpl.tail = 1 := by
  decide
/-- R16, R19. -/
theorem test_request_end_leaves :
    (after .requestEnd { withWindow 1 (active .software none none) with
      sched := { running.sched with queue := [{ entry .software with begun := 1, ended := 1, good := 1 }] } }).sched.queue =
      [] := by decide
/-- R169. -/
theorem test_coalescing_timer_signals :
    (after .coalescingTimerExpiry { running with
      cpl := { running.cpl with timer := some due, unsignalled := 1 } }).cpl.cause.completion = true := by decide
/-- R112. -/
theorem test_ack_records_the_write :
    (after (.sensorAck 0) (withJob (.write 4 5) (withPort .engine (.write 4 5) running))).sensor.mirror =
      [(4, { stale := false, value := 5 })] := by decide
/-- R109. -/
theorem test_ack_timeout_frees_the_port :
    (after .ackTimeout (withJob (.read 4) (withPort .engine (.read 4) running))).sensor.port = none := by decide
/-- R124. -/
theorem test_settle_timer_ready : (after .settleTimerExpiry (powered .settling running)).sensor.power = .ready := by decide

/-! ## What meets the hypotheses of the statements -/

theorem witness_StepRunsTheFrontCommand :
    ({ State.reset with pending := [.frameBegin, .creditGrant] } : State).pending = [.frameBegin, .creditGrant] := rfl

/-- A replay whose port the end of a drain took. -/
def replayOff (mirror : List (Nat × MirrorEntry)) : State :=
  { powered .replaying running with sensor := { (powered .replaying running).sensor with mirror := mirror } }

theorem witness_EmptyQueueLetsTheTimebaseAdvance :
    State.reset.pending = [] ∧ State.reset.readyEvent = none ∧ ¬ ReplayTakenOff State.reset ∧
      ({ running with cpl := { running.cpl with timer := some due } } : State).readyEvent = some .coalescingTimerExpiry := by
  unfold ReplayTakenOff; decide

theorem witness_EmptyQueueLetsTheTimebaseAdvance_replay :
    (replayOff [(3, { stale := true, value := 5 })]).readyEvent = none ∧
      ReplayTakenOff (replayOff [(3, { stale := true, value := 5 })]) ∧
      nextStale 0 (replayOff [(3, { stale := true, value := 5 })]).sensor.mirror = some (3, { stale := true, value := 5 }) ∧
      (replayOff [(3, { stale := true, value := 5 })]).noFlushRecord ∧ (replayOff []).readyEvent = none ∧
      ReplayTakenOff (replayOff []) ∧ nextStale 0 (replayOff []).sensor.mirror = none ∧
      (replayOff []).ring.setup = some setup0 ∧ (replayOff []).noneWaits := by
  unfold ReplayTakenOff State.noneWaits State.noFlushRecord; decide

theorem witness_ControlRecordsReadBack :
    Instr.WellFormed (.windowSet 1 15 window0) = true ∧ (encodeControl (.windowSet 1 15 window0)).isSome = true ∧
      Instr.WellFormed (.badRecord 0x0B 1) = true ∧ (encodeControl (.badRecord 0x0B 1)).isSome = true := by decide

theorem witness_RegisterWindowWrites :
    ¬ (4 = 4 ∧ isWritableOffset 0x08 = true) ∧ ¬ (4 = 4 ∧ isWritableOffset 0x2C = true) ∧
      ¬ (2 = 4 ∧ isWritableOffset 0x04 = true) := by decide

theorem witness_EnableSetStarts : State.reset.link.part = .disabled ∧ running.link.part ≠ .disabled := by decide

theorem witness_EnableClearLeavesHaltedOrDrains :
    (inPart .starting running).link.part = .starting ∧ (inPart .halted running).link.part = .halted ∧
      running.link.part = .running := by decide

theorem framesApart_of (s : State)
    (h : ¬ (s.beforeReadout .c0 = true ∧ s.beforeReadout .c1 = true) ∧
      ¬ (s.inPhase .c0 .readout = true ∧ s.inPhase .c1 .readout = true) ∧
      (s.liveRequest.isSome = true ∨ s.seq.ctx0.isSome = false ∧ s.seq.ctx1.isSome = false) ∧
      (s.recv.served = some .c0 ↔ s.inPhase .c0 .readout = true) ∧
      (s.recv.served = some .c1 ↔ s.inPhase .c1 .readout = true) ∧ (s.recv.state = .idle ↔ s.recv.served = none) ∧
      s.seq.expose = false ∧ s.seq.strobe = false ∧
      (s.ctx .c0).all (fun f => !f.returnAsked || (decide (f.phase = .reserving) && f.creditHeld)) = true ∧
      (s.ctx .c1).all (fun f => !f.returnAsked || (decide (f.phase = .reserving) && f.creditHeld)) = true) :
    s.framesApart := by
  obtain ⟨h1, h2, h3, h4, h5, h6, h7, h8, h9, h10⟩ := h
  refine ⟨h1, h2, fun c hc => ?_, fun c => ?_, h6, fun h => ?_, fun h => ?_, fun c => ?_⟩
  · rcases h3 with h3 | h3
    · exact h3
    · cases c
      · exact absurd hc (by show ¬ s.seq.ctx0.isSome = true; rw [h3.1]; decide)
      · exact absurd hc (by show ¬ s.seq.ctx1.isSome = true; rw [h3.2]; decide)
  · cases c
    · exact h4
    · exact h5
  · rw [h7] at h; cases h
  · rw [h8] at h; cases h
  · cases c
    · exact h9
    · exact h10

/-- A control record is read while a request waits for its trigger and another stands behind it. -/
def stopReading : State :=
  { active .edge (some (frame .waitStart)) none with
    ring := reading.ring
    engine := reading.engine
    sched := { running.sched with queue := [entry .edge, { entry .edge with tag := 8 }] } }

theorem stopReading_apart : stopReading.framesApart := framesApart_of _ (by decide)


/-- A request waits for its trigger, and another stands behind it. -/
def twoQueued : State :=
  { active .edge (some (frame .waitStart)) none with
    sched := { running.sched with queue := [entry .edge, { entry .edge with tag := 8 }] } }

theorem flushForm_of (s : State) (h1 : s.sensor.flush = none)
    (h2 : s.sensor.staged.all (fun e => !e.inProgress) = true) : s.flushForm := by
  refine ⟨fun e he => ?_, fun e he hp => ?_, fun f hf => by rw [h1] at hf; cases hf⟩
  · simpa using List.all_eq_true.mp h2 e (List.mem_of_mem_tail he)
  · have := List.all_eq_true.mp h2 e (List.mem_of_mem_head? he)
    rw [hp] at this; cases this

theorem stopForm_of (s : State) (h : s.sched.stopMode = .none) : s.stopForm := fun k => absurd h k

theorem witness_EnteringDraining :
    twoQueued.ring.setup = some setup0 ∧ twoQueued.link.part = .running ∧ twoQueued.noneWaits ∧ twoQueued.framesApart ∧
      twoQueued.stopForm ∧ twoQueued.flushForm ∧ twoQueued.liveRequest.isSome = true ∧
      twoQueued.ring.capTail.toNat = twoQueued.ring.capHead ∧ twoQueued.ring.capRead = none :=
  ⟨rfl, rfl, ⟨rfl, rfl, rfl⟩, framesApart_of _ (by decide), stopForm_of _ rfl, flushForm_of _ rfl rfl, rfl, rfl, rfl⟩

theorem witness_EnteringDraining_flush_record :
    (withJob .flush (withStaged [staged0] running)).flushRecord = some 8 ∧
      (withJob .flush (withStaged [staged0] running)).sensor.staged.filter Staged.inProgress = [] ∧
      (withJob .flush (withStaged [staged0] running)).sensor.flush = none ∧
      (withJob .flush (withStaged [staged0] running)).framesApart ∧
      (withJob .flush (withStaged [staged0] running)).flushForm ∧
      (withJob .flush (withStaged [staged0] running)).liveRequest.isSome = false :=
  ⟨rfl, rfl, rfl, framesApart_of _ (by decide), flushForm_of _ rfl rfl, rfl⟩

/-- The Capture Ring holds two records and the scheduler stands with this credit. -/
def fetching (credit : CreditState) : State :=
  { running with
    ring := { running.ring with capTail := 2 }
    sched := { running.sched with credit := credit } }

theorem witness_EnteringDraining_fetch :
    (fetching .held).ring.capTail.toNat ≠ (fetching .held).ring.capHead ∧ (fetching .held).sched.queue.length < 4 ∧
      (fetching .held).ring.capRead = none ∧ (fetching .held).framesApart ∧ (fetching .none).framesApart ∧
      4 ≤ ({ fetching .none with sched := { running.sched with queue := List.replicate 4 (entry .edge) } } :
        State).sched.queue.length :=
  ⟨by decide, by decide, rfl, framesApart_of _ (by decide), framesApart_of _ (by decide), by decide⟩

theorem witness_CoalescingExpirySignals :
    isDue running.now (some due) = true ∧ isDue running.now (some later) = false := by decide

theorem witness_SetupAddrWrites : State.reset.link.part = .disabled ∧ running.link.part ≠ .disabled := by decide

theorem witness_TailWritesFollowTable61 :
    TailTaken .control 4294967295 State.reset ∧ TailTaken .control 1023 (inPart .starting running) ∧
      ¬ TailTaken .control 1024 (inPart .starting running) ∧ TailTaken .buffer 4095 (inPart .starting running) ∧
      ¬ TailTaken .buffer 4096 (inPart .starting running) ∧ TailTaken .capture 15 running ∧
      ¬ TailTaken .capture 16 running ∧ TailTaken .buffer 15 (inPart .draining running) ∧
      ¬ TailTaken .buffer 16 (inPart .draining running) ∧ (inPart .starting running).link.part ≠ .running := by
  unfold TailTaken
  refine ⟨?_, ?_, ?_, ?_, ?_, ?_, ?_, ?_, ?_, ?_⟩ <;> decide

theorem witness_TailWriteStartsTheFetch :
    running.link.part = .running ∧ running.ring.setup = some setup0 ∧ 15 < setup0.control.size ∧
      15 ≠ running.ring.ctlHead ∧ running.engine.mode = .idle ∧ 15 < setup0.capture.size ∧ 15 ≠ running.ring.capHead ∧
      running.sched.queue.length < 4 ∧ running.sched.flushMark = none ∧ running.sched.credit = .none ∧
      15 < setup0.buffer.size ∧ 15 ≠ running.ring.bufHead ∧
      running.bufs.cache.length < min 32 (setup0.buffer.size - 1) ∧ running.ring.bufRead = none := by decide

/-- A credit held whose read has not begun, at the scheduler and at the engine. -/
def holding : State :=
  { running with
    sched := { running.sched with credit := .held }
    engine := { mode := .waitCredit, credit := .held, job := none } }

theorem witness_TailWriteStartsTheFetch_held :
    holding.link.part = .running ∧ holding.engine.mode = .waitCredit ∧ holding.engine.credit = .held ∧
      holding.ring.ctlRead = none ∧ holding.sched.credit = .held ∧ holding.ring.capRead = none ∧
      holding.ring.setup = some setup0 ∧ holding.sched.queue.length < 4 ∧ holding.sched.flushMark = none := by decide

/-- A flush mark at 3 with a read in progress. -/
def marked : State :=
  { running with
    ring := { running.ring with capTail := 5, capRead := some (readWith later) }
    sched := { running.sched with flushMark := some 3, credit := .held } }

theorem witness_TailWriteMovesTheFlushMark :
    marked.ring.setup = some setup0 ∧ marked.link.part = .running ∧ marked.ring.capHead < setup0.capture.size ∧
      3 < setup0.capture.size ∧ 3 ≠ marked.ring.capHead ∧ marked.sched.flushMark = some 3 ∧
      forward 16 marked.ring.capHead 2 < forward 16 marked.ring.capHead 3 ∧
      forward 16 marked.ring.capHead 0 < forward 16 marked.ring.capHead 3 ∧ marked.ring.capRead.isSome = true ∧
      ¬ forward 16 marked.ring.capHead 15 < forward 16 marked.ring.capHead 3 := by decide

/-- Three slots written and none freed. -/
def written3 : State := { running with cpl := { running.cpl with tail := 3 } }

theorem witness_CplHeadWrites :
    written3.ring.setup = some setup0 ∧ written3.cpl.head.toNat < setup0.completion.size ∧
      written3.cpl.tail < setup0.completion.size ∧ forward 32 0 3 ≤ forward 32 0 written3.cpl.tail ∧
      forward 32 0 written3.cpl.tail < forward 32 0 4 ∧ setup0.completion.size ≤ 32 ∧ State.reset.ring.setup = none := by
  decide

/-- STARTING, with Enable as written. -/
def starting (enable : Bool) : State :=
  { inPart .starting State.reset with
    link := { (inPart .starting State.reset).link with enable := enable }
    ring := { State.reset.ring with setupRead := some (readWith due), capTail := 16 } }

theorem witness_ValidSetupBlockIsTakenUp :
    (starting true).ring.setupRead.isSome = true ∧ (starting true).restForm ∧ (starting false).restForm ∧
      firstFailed (setupChecks (parseSetup setupData)) = none ∧ (starting true).link.enable = true ∧
      (starting false).link.enable = false ∧ (starting false).noneWaits ∧
      clampTail (parseSetup setupData).capture.size (starting false).ring.capTail = 0 ∧
      clampTail (parseSetup setupData).capture.size 2 = 2 := by
  unfold State.noneWaits
  unfold State.restForm State.atRest; decide

theorem witness_HostReadFaultsHalt :
    (starting true).ring.setupRead.isSome = true ∧ (reading.ringRead .control).isSome = true ∧
      isDue (starting true).now (((starting true).readInProgress .setup).map ReadInProgress.timer) = true ∧
      isDue reading.now ((reading.readInProgress (.ring .control)).map ReadInProgress.timer) = false ∧
      isDue (atOne reading).now (((atOne reading).readInProgress (.ring .control)).map ReadInProgress.timer) = true ∧
      firstFailed (setupChecks (parseSetup badSetupData)) = some .depth := by decide

theorem witness_StaleReadsAreDiscarded :
    running.ring.setupRead = none ∧ running.ringRead .control = none ∧ running.ring.capRead = none ∧
      running.ring.bufRead = none ∧ running.ring.ctlRead = none ∧ (encodeControl (.mark 1)).isSome = true := by decide

theorem witness_DrainFinishes :
    Finished (inPart .draining running) ∧ ¬ Finished running ∧ (inPart .draining running).link.enable = true ∧
      Finished { inPart .draining running with link := { (inPart .draining running).link with enable := false } } ∧
      Finished (inPart .draining (replayOff [])) := by
  unfold Finished; decide

theorem witness_CaptureRecordJoinsTheQueue :
    marked.ring.capRead.isSome = true ∧ marked.ring.setup = some setup0 ∧ marked.sched.queue = [] ∧
      ({ marked with sched := (active .edge none none).sched } : State).sched.queue ≠ [] := by decide

/-- A read of the Buffer Ring in progress, and a context that waits for a buffer. -/
def bufferWaits : State :=
  { powered .settling (active .edge (some unserved) none) with ring := { running.ring with bufRead := some (readWith later) } }

theorem witness_BufferEntryJoinsTheCache :
    bufferWaits.ring.bufRead.isSome = true ∧ bufferWaits.ring.setup = some setup0 ∧ bufferWaits.portQuiet ∧
      bufferWaits.ctx .c0 = some unserved ∧ awaitsBuffer (bufferWaits.ctx .c0) = true ∧
      awaitsBuffer (bufferWaits.ctx .c1) = false ∧ bufferWaits.request = some (request .edge) ∧
      awaitsBuffer (active .edge (some (frame .gap)) none).seq.ctx0 = false ∧ awaitsBuffer none = false := by
  unfold State.portQuiet State.noneWaits State.noFlushRecord; decide

theorem witness_BuffersAreServedInOrder :
    (serve unserved.assignments [cached]).2.2 = .allServed ∧ (serve unserved.assignments []).2.2 = .cacheEmpty ∧
      (serve unserved.assignments [{ cached with valid := false }]).2.2 = .returnFront := by decide

/-- R95: a front entry too short for the first window is returned SHORT, though it would do for the second. -/
theorem witness_BuffersAreServedInOrder_short :
    serve (unserved.assignments.map (fun a => { a with byteSize := 100 }) ++ unserved.assignments) [cached] =
      (unserved.assignments.map (fun a => { a with byteSize := 100 }) ++ unserved.assignments, [cached], .returnFront) := by
  decide

theorem only_request (r : Requester) (s : State) (h : ∀ q ∈ grantOrder, q ≠ r → s.waitingRequest q = none) :
    ∀ q, q ≠ r → s.waitingRequest q = none := fun q hq => h q (by cases q <;> decide) hq

/-- The engine asks for its credit. -/
def engineAsks : State := { running with engine := { mode := .waitCredit, credit := .asked, job := none } }

theorem witness_CreditIsGrantedInOrder_full :
    ({ engineAsks with cpl := { running.cpl with tail := 31 } } : State).portQuiet ∧
      ({ engineAsks with cpl := { running.cpl with tail := 31 } } : State).firstRequest = some (.engine, 1) ∧
      ({ engineAsks with cpl := { running.cpl with tail := 31 } } : State).freeCredit < 1 := by
  unfold State.portQuiet State.noneWaits State.noFlushRecord; decide

theorem witness_CreditIsGrantedInOrder_engine :
    engineAsks.portQuiet ∧ engineAsks.firstRequest = some (.engine, 1) ∧ 1 ≤ engineAsks.freeCredit ∧
      (∀ q, q ≠ .engine → engineAsks.waitingRequest q = none) ∧ engineAsks.engine.mode = .waitCredit :=
  ⟨quiet_of _ rfl rfl rfl rfl, by decide, by decide, only_request _ _ (by decide), rfl⟩

/-- The scheduler asks for its credit. -/
def captureAsks : State := { running with sched := { running.sched with credit := .asked } }

theorem witness_CreditIsGrantedInOrder_capture :
    captureAsks.portQuiet ∧ captureAsks.firstRequest = some (.capture, 1) ∧ 1 ≤ captureAsks.freeCredit ∧
      (∀ q, q ≠ .capture → captureAsks.waitingRequest q = none) ∧ captureAsks.captureMayFetch = true ∧
      captureAsks.sched.queue.length < 4 :=
  ⟨quiet_of _ rfl rfl rfl rfl, by decide, by decide, only_request _ _ (by decide), by decide, by decide⟩

/-- A drain with a cached buffer. -/
def bufferAsks : State := { inPart .draining running with bufs := { cache := [cached] } }

theorem witness_CreditIsGrantedInOrder_buffer :
    bufferAsks.portQuiet ∧ bufferAsks.firstRequest = some (.buffer, 1) ∧ 1 ≤ bufferAsks.freeCredit ∧
      (∀ q, q ≠ .buffer → bufferAsks.waitingRequest q = none) ∧ bufferAsks.ring.setup = some setup0 ∧
      bufferAsks.bufs.cache = [cached] :=
  ⟨quiet_of _ rfl rfl rfl rfl, by decide, by decide, only_request _ _ (by decide), rfl, rfl⟩

/-- A frame that asks for its credit, while the sensor settles. -/
def frameAsks (f : Frame) : State :=
  { powered .settling (active .edge (some { f with creditHeld := false }) none) with bufs := { cache := [cached] } }

theorem witness_CreditIsGrantedInOrder_frame :
    (frameAsks unserved).portQuiet ∧ (frameAsks unserved).firstRequest = some (.sequencer, 1) ∧
      1 ≤ (frameAsks unserved).freeCredit ∧ (∀ q, q ≠ .sequencer → (frameAsks unserved).waitingRequest q = none) ∧
      frameRequest ((frameAsks unserved).ctx .c1) = none ∧ (frameAsks unserved).request = some (request .edge) ∧
      (frameAsks (frame .closing)).firstRequest = some (.sequencer, 1) ∧
      (∀ q, q ≠ .sequencer → (frameAsks (frame .closing)).waitingRequest q = none) :=
  ⟨quiet_of _ rfl rfl rfl rfl, by decide, by decide, only_request _ _ (by decide), by decide, by decide, by decide,
    only_request _ _ (by decide)⟩

/-- A frame that asks for a return. -/
def returnAsks : State :=
  { powered .settling (active .edge (some { unserved with returnAsked := true }) none) with
    bufs := { cache := [{ cached with valid := false }] } }

theorem witness_CreditIsGrantedInOrder_return :
    returnAsks.portQuiet ∧ returnAsks.firstRequest = some (.sequencer, 1) ∧ 1 ≤ returnAsks.freeCredit ∧
      (∀ q, q ≠ .sequencer → returnAsks.waitingRequest q = none) ∧ returnAsks.ring.setup = some setup0 ∧
      frameRequest (returnAsks.ctx .c1) = none ∧ returnAsks.request = some (request .edge) :=
  ⟨quiet_of _ rfl rfl rfl rfl, by decide, by decide, only_request _ _ (by decide), rfl, by decide, by decide⟩

/-- The scheduler, a frame that has closed without its credit, and the engine ask, with this many slots not freed. -/
def threeAsk (unfreed : Nat) : State :=
  { active .edge (some { frame .closing with creditHeld := false }) none with
    sched := { (active .edge none none).sched with credit := .asked }
    engine := engineAsks.engine
    cpl := { running.cpl with tail := unfreed } }

theorem witness_CreditIsGrantedInOrder_several :
    (threeAsk 27).portQuiet ∧ (threeAsk 27).captureMayFetch = true ∧ (threeAsk 27).engine.mode = .waitCredit ∧
      (threeAsk 27).requestingContext = some (.c0, 1) ∧ (threeAsk 27).link.part = .running ∧
      (threeAsk 27).waitingRequest .engine = some 1 ∧ (threeAsk 27).askedUpTo .engine ≤ (threeAsk 27).freeCredit ∧
      (threeAsk 28).askedUpTo .sequencer ≤ (threeAsk 28).freeCredit ∧
      (threeAsk 28).freeCredit < (threeAsk 28).askedUpTo .engine := by
  unfold State.portQuiet State.noneWaits State.noFlushRecord; decide

theorem witness_CreditIsGrantedInOrder_apart : (threeAsk 27).framesApart ∧ (threeAsk 28).framesApart :=
  ⟨framesApart_of _ (by decide), framesApart_of _ (by decide)⟩

theorem witness_MarksAndRefusedRecords : reading.readingControl setup0 ∧ 512 ≤ (512 : Half).toNat := by
  unfold State.readingControl; decide

theorem witness_WindowSetFollowsTable22 :
    (withWindow 0 reading).readingControl setup0 ∧ (withWindow 0 reading).cutter.windows.length = 16 ∧
      firstFailed (windowChecks setup0 (withWindow 0 reading).cutter.windows 15 window0) = none ∧
      firstFailed (windowChecks setup0 (withWindow 0 reading).cutter.windows 16 window0) =
        some (.badField, .windowNumber) ∧
      firstFailed (windowChecks setup0 (withWindow 1 reading).cutter.windows 15 window0) = some (.inUse, .none) := by
  unfold State.readingControl; decide

theorem witness_WindowClearFollowsTable23 :
    (withWindow 1 reading).readingControl setup0 ∧ (withWindow 1 reading).cutter.windows.length = 16 ∧
      15 < (16 : Half).toNat ∧ (15 : Half).toNat ≤ 15 ∧ (windowAt (withWindow 1 reading).cutter.windows 15).refs ≠ 0 ∧
      (withWindow 0 reading).readingControl setup0 ∧ (windowAt (withWindow 0 reading).cutter.windows 15).refs = 0 := by
  unfold State.readingControl; decide

theorem witness_OrderSetFollowsTable26 :
    reading.readingControl setup0 ∧ ([0, 1, 2, 3, 4, 5, 6, 7, 8, 9, 10, 11, 12, 13, 14, 15] : List Byte).length = 16 ∧
      (∀ v ∈ ([0, 1, 2, 3, 4, 5, 6, 7, 8, 9, 10, 11, 12, 13, 14, 15] : List Byte), v.toNat ≤ 15) ∧
      ([0, 1, 2, 3, 4, 5, 6, 7, 8, 9, 10, 11, 12, 13, 14, 15] : List Byte).Nodup ∧
      ¬ (∀ v ∈ ([1, 2, 3, 4, 5, 6, 7, 8, 9, 10, 11, 12, 13, 14, 15, 16] : List Byte), v.toNat ≤ 15) ∧
      reading.seq.ctx0 = none ∧ reading.seq.ctx1 = none ∧ (active .edge (some (frame .gap)) none).seq.ctx0 ≠ none := by
  unfold State.readingControl; decide

theorem witness_ImmediateSensorAccess :
    reading.readingControl setup0 ∧ (511 : Half).toNat < 512 ∧ (powered .off reading).readingControl setup0 ∧
      (powered .off reading).sensor.power = .off ∧ (powered .replaying reading).sensor.power = .replaying ∧
      reading.sensor.power = .ready ∧ reading.sensor.port = none ∧ reading.sensor.replayWaits = false ∧
      reading.sensor.flushWaits = false ∧ (withPort .flush (.write 1 1) reading).sensor.port ≠ none := by
  unfold State.readingControl; decide

/-- A control record is read while context 0 waits in GAP. -/
def gapReading : State :=
  { active .edge (some (frame .gap)) none with ring := reading.ring, engine := reading.engine }

theorem witness_StagedWrites :
    (withStaged (List.replicate 32 staged0) reading).readingControl setup0 ∧
      (withStaged (List.replicate 32 staged0) reading).portQuiet ∧
      32 ≤ (withStaged (List.replicate 32 staged0) reading).sensor.staged.length ∧
      (withStaged (List.replicate 31 staged0) (inPart .draining reading)).sensor.staged.length < 32 ∧
      (withStaged (List.replicate 31 staged0) (inPart .draining reading)).link.part = .draining ∧
      reading.inPhase .c0 .gap = false ∧ reading.inPhase .c1 .gap = false := by
  unfold State.readingControl State.portQuiet State.noneWaits State.noFlushRecord; decide

theorem witness_StagedWrites_gap :
    gapReading.readingControl setup0 ∧ gapReading.portQuiet ∧ gapReading.sensor.staged.length < 32 ∧
      gapReading.link.part ≠ .draining ∧ gapReading.sensor.power = .ready ∧ gapReading.sensor.flush = none ∧
      gapReading.sensor.port = none ∧ gapReading.blocksFlush .c0 = false ∧ gapReading.blocksFlush .c1 = false ∧
      gapReading.inPhase .c0 .gap = true ∧ gapReading.ctx .c0 = some (frame .gap) ∧
      gapReading.inPhase (other .c0) .gap = false ∧ gapReading.request = some (request .edge) ∧
      (inPart .draining gapReading).readingControl setup0 ∧ (inPart .draining gapReading).portQuiet ∧
      (inPart .draining gapReading).link.part = .draining ∧
      ((inPart .draining gapReading).sensor.staged ++ [staged0]).filter Staged.inProgress = [] := by
  unfold State.readingControl State.portQuiet State.noneWaits State.noFlushRecord; decide

/-- The other context in READOUT holds the flush back. -/
theorem witness_StagedWrites_held_back :
    ({ gapReading with seq := { gapReading.seq with ctx1 := some (frame .readout) } } : State).blocksFlush (other .c0) = true := by
  decide

theorem powerForm_of (s : State) (h1 : s.sensor.enableOut = decide (s.sensor.power ≠ .off))
    (h2 : s.sensor.settle.isSome = true ↔ s.sensor.power = .settling) (h3 : s.sensor.replayWaits = false)
    (h4 : s.sensor.port = none) : s.powerForm := by
  refine ⟨h1, h2, fun h => ?_, fun ⟨t, ht, _⟩ => ?_⟩
  · rw [h3] at h; cases h
  · rw [h4] at ht; cases ht

theorem witness_SensorPowerOff :
    reading.readingControl setup0 ∧ reading.sensor.power ≠ .off ∧ (powered .off reading).readingControl setup0 ∧
      (powered .off reading).sensor.power = .off := by
  unfold State.readingControl; decide

theorem witness_SensorPowerOn :
    reading.readingControl setup0 ∧ reading.powerForm ∧ reading.sensor.power = .ready ∧ (powered .off reading).powerForm ∧
      (powered .settling reading).powerForm ∧ (powered .replaying reading).powerForm :=
  ⟨⟨rfl, rfl⟩, powerForm_of _ (by decide) (by decide) rfl rfl, rfl, powerForm_of _ (by decide) (by decide) rfl rfl,
    powerForm_of _ (by decide) (by decide) rfl rfl, powerForm_of _ (by decide) (by decide) rfl rfl⟩

theorem witness_SensorPowerCycle :
    reading.readingControl setup0 ∧ reading.powerForm ∧ reading.sensor.power ≠ .off ∧
      (powered .off reading).readingControl setup0 ∧ (powered .off reading).powerForm :=
  ⟨⟨rfl, rfl⟩, powerForm_of _ (by decide) (by decide) rfl rfl, by decide, ⟨rfl, rfl⟩,
    powerForm_of _ (by decide) (by decide) rfl rfl⟩

theorem witness_FlushStagedFollowsTable46 :
    reading.readingControl setup0 ∧ reading.portQuiet ∧ reading.sensor.power = .ready ∧ reading.sensor.staged = [] ∧
      reading.sensor.flush = none ∧ (powered .off reading).sensor.power = .off ∧
      (withStaged [staged0] reading).flushCondition = true ∧ (withStaged [staged0] reading).sensor.port = none ∧
      (withPort .cleared (.read 1) (withStaged [staged0] reading)).sensor.port ≠ none ∧
      (withStaged [staged0] (powered .replaying reading)).flushCondition = false := by
  unfold State.readingControl State.portQuiet State.noneWaits State.noFlushRecord; decide

theorem witness_DiscardStagedCompletesInOrder :
    reading.readingControl setup0 ∧ reading.portQuiet ∧ reading.inPhase .c0 .gap = false ∧
      reading.inPhase .c1 .gap = false ∧ gapReading.readingControl setup0 ∧ gapReading.portQuiet ∧
      gapReading.ctx .c0 = some (frame .gap) ∧ gapReading.inPhase (other .c0) .gap = false ∧
      gapReading.request = some (request .edge) ∧ (withStaged [staged0] gapReading).sensor.power = .ready ∧
      (withStaged [staged0] gapReading).sensor.staged.filter Staged.inProgress = [] := by
  unfold State.readingControl State.portQuiet State.noneWaits State.noFlushRecord; decide

theorem witness_StopByTag :
    stopReading.readingControl setup0 ∧ stopReading.portQuiet ∧ stopReading.framesApart ∧
      eligible 7 stopReading 0 (entry .edge) = true ∧
      (eligible 8 stopReading 0 (entry .edge) = false ∧
        eligible 8 stopReading 1 { entry .edge with tag := 8 } = true) ∧
      (∀ i e, stopReading.sched.queue[i]? = some e → eligible 9 stopReading i e = false) := by
  refine ⟨⟨rfl, rfl⟩, quiet_of _ rfl rfl rfl rfl, stopReading_apart, by decide, by decide, fun i e h => ?_⟩
  match i, h with
  | 0, h => cases h; decide
  | 1, h => cases h; decide

theorem witness_StopAll :
    stopReading.readingControl setup0 ∧ stopReading.portQuiet ∧ stopReading.framesApart ∧ stopReading.stopForm ∧
      stopReading.liveRequest.isSome = true ∧ reading.readingControl setup0 ∧ reading.portQuiet ∧ reading.framesApart ∧
      reading.stopForm ∧ reading.liveRequest.isSome = false :=
  ⟨⟨rfl, rfl⟩, quiet_of _ rfl rfl rfl rfl, stopReading_apart, stopForm_of _ rfl, rfl, ⟨rfl, rfl⟩,
    quiet_of _ rfl rfl rfl rfl, framesApart_of _ (by decide), stopForm_of _ rfl, rfl⟩

/-- The same with a GRACEFUL stop applied before. -/
theorem witness_StopAll_graceful :
    ({ stopReading with sched := { stopReading.sched with stopMode := .graceful, endCause := some .stopped } } : State).stopForm :=
  fun _ h => nomatch h

theorem witness_FrameIsBegun :
    MayBegin (entry .edge) (request .edge) (active .edge none none) ∧
      MayBegin (entry .edge) (request .edge) (active .edge none (some (frame .closing))) := by
  unfold MayBegin; decide

theorem witness_FrameIsBegun_not : ∀ e r, ¬ MayBegin e r running := fun _ _ h => nomatch h.1

/-- A LEVEL request whose filtered level is high, with the pin low since the Timebase value 0 and 1 µs past. -/
def levelEnds (c0 c1 : Option Frame) : State :=
  atOne { active .level c0 c1 with
    seq := { (active .level c0 c1).seq with trigger := .high, hold := some { started := 0, duration := 1 } } }

theorem witness_StartEvents :
    (atOne (pinHigh (active .edge (some (frame .waitStart)) none))).portQuiet ∧
      isDue 1 (pinHigh running).seq.hold = true ∧ isDue 0 (pinHigh running).seq.hold = false ∧
      (pinHigh (active .edge (some (frame .waitStart)) none)).liveRequest = some (request .edge) ∧
      (request .edge).source = .edge ∧
      (pinHigh running).seq.pin = (if (request .edge).falling then Level.low else .high) ∧
      (active .edge (some (frame .waitStart)) none).inPhase (other .c0) .waitStart = false ∧
      (active .edge none none).inPhase .c0 .waitStart = false ∧ (active .edge none none).inPhase .c1 .waitStart = false ∧
      (active .software none none).liveRequest = some (request .software) ∧ (request .software).source = .software := by
  unfold State.portQuiet State.noneWaits State.noFlushRecord; decide

theorem witness_StartEvents_pin :
    Level.high ≠ running.seq.pin ∧ running.seq.pin = running.seq.trigger ∧ running.seq.hold = none ∧
      ((1 : Stamp) - running.now).toNat ≤ 1 := by decide

/-- An interval tick is due. -/
def ticking : State :=
  { active .interval (some (frame .waitStart)) none with
    sched := { (active .interval none none).sched with interval := some due } }

theorem witness_StartEvents_tick :
    ticking.portQuiet ∧ ticking.sched.interval = some due ∧ ticking.liveRequest = some (request .interval) ∧
      due.duration ≤ (ticking.now - due.started).toNat ∧ (ticking.now - later.started).toNat < later.duration := by
  unfold State.portQuiet State.noneWaits State.noFlushRecord; decide

/-- R12: the timer goes on while a context waits for its start, and stops when the last frame leaves WAIT_START. -/
theorem witness_StartEvents_interval :
    ¬ ticking.intervalStops ∧
      ({ ticking with
        sched := { ticking.sched with queue := [{ entry .interval with begun := 1 }] }
        seq := { ticking.seq with ctx0 := some (frame .exposing) } } : State).intervalStops := by
  refine ⟨fun h => absurd (h.2 .c0).2.2 (by decide), .inl (by decide), fun c => ?_⟩
  cases c <;> decide

theorem witness_ExposureEnds :
    (active .edge (some { frame .exposing with expTimer := some due }) none).portQuiet ∧
      isDue running.now (some due) = true ∧ (frame .exposing).endPending = false ∧
      (active .edge (some (frame .exposing)) (some (frame .readout))).inPhase (other .c0) .readout = true ∧
      (active .edge (some (frame .exposing)) none).inPhase (other .c0) .readout = false ∧
      ¬ ((frame .exposing).phase = .exposing ∧ isDue running.now (frame .exposing).expTimer = true) := by
  unfold State.portQuiet State.noneWaits State.noFlushRecord; decide

theorem witness_ExposureEnds_level :
    (levelEnds (some (frame .exposing)) none).portQuiet ∧
      isDue (levelEnds (some (frame .exposing)) none).now (levelEnds (some (frame .exposing)) none).seq.hold = true ∧
      (levelEnds (some (frame .exposing)) none).liveRequest = some (request .level) ∧ (request .level).source = .level ∧
      (levelEnds (some (frame .exposing)) none).seq.pin ≠ (if (request .level).falling then Level.low else .high) ∧
      (levelEnds (some (frame .exposing)) none).inPhase (other .c0) .lead = false ∧
      (levelEnds (some (frame .exposing)) none).inPhase (other .c0) .exposing = false ∧
      (levelEnds (some (frame .exposing)) (some (frame .readout))).inPhase (other .c0) .readout = true ∧
      (levelEnds (some (frame .lead)) none).inPhase .c0 .lead = true := by
  unfold State.portQuiet State.noneWaits State.noFlushRecord; decide

theorem witness_LeadAndTimeoutExpiries :
    (active .edge (some { frame .lead with leadTimer := some due }) none).portQuiet ∧
      (active .edge (some { frame .lead with leadTimer := some due }) none).request = some (request .edge) ∧
      (active .edge (some { frame .waitStart with trigTimer := some due }) none).portQuiet ∧
      isDue running.now (some due) = true ∧ ¬ ((frame .lead).phase = .lead ∧ isDue running.now (frame .lead).leadTimer = true) := by
  unfold State.portQuiet State.noneWaits State.noFlushRecord; decide

/-- A FLUSH_STAGED waits while a context waits for its trigger, with the trigger timeout due. -/
def flushHeldBack : State :=
  withJob .flush (withStaged [staged0] (active .edge (some { frame .waitStart with trigTimer := some due }) none))

theorem witness_LeadAndTimeoutExpiries_flush :
    flushHeldBack.ctx .c0 = some { frame .waitStart with trigTimer := some due } ∧
      flushHeldBack.flushRecord.isSome = true ∧ flushHeldBack.noneWaits ∧ flushHeldBack.sensor.power = .ready ∧
      flushHeldBack.sensor.flush = none ∧ flushHeldBack.sensor.staged ≠ [] ∧
      flushHeldBack.blocksFlush (other .c0) = false ∧ flushHeldBack.sensor.port = none ∧
      (withPort .cleared (.read 1) flushHeldBack).sensor.port ≠ none := by
  unfold State.noneWaits; decide

theorem witness_FrameStartsAndStrayPackets :
    running.recv.state = .idle ∧ (readout .expecting none).recv.state = .expecting ∧
      (readout .expecting none).recv.served = some .c0 ∧ (readout .expecting none).ctx .c0 = some (frame .readout) ∧
      (readout .receiving none).portQuiet ∧ (readout .receiving none).recv.state = .receiving ∧
      (frame .readout).phase = .readout ∧ (readout .receiving none).inPhase (other .c0) .gap = false := by
  unfold State.portQuiet State.noneWaits State.noFlushRecord; decide

/-- A FLUSH_STAGED waits with a setting staged, and a readout is all that holds its flush back. -/
def readoutHoldsFlush : State := withJob .flush (withStaged [staged0] (readout .receiving none))

theorem witness_FrameStartsAndStrayPackets_flush :
    readoutHoldsFlush.recv.state = .receiving ∧ readoutHoldsFlush.recv.served = some .c0 ∧
      readoutHoldsFlush.ctx .c0 = some (frame .readout) ∧ (frame .readout).phase = .readout ∧
      readoutHoldsFlush.flushRecord.isSome = true ∧ readoutHoldsFlush.noneWaits ∧
      readoutHoldsFlush.sensor.power = .ready ∧ readoutHoldsFlush.sensor.flush = none ∧
      readoutHoldsFlush.sensor.staged ≠ [] ∧ readoutHoldsFlush.blocksFlush (other .c0) = false ∧
      readoutHoldsFlush.sensor.port = none ∧ (withPort .cleared (.read 1) readoutHoldsFlush).sensor.port ≠ none := by
  unfold State.noneWaits; decide

theorem witness_LinesAreTestedAndCut :
    (readout .receiving none).recv.state = .receiving ∧ (readout .receiving none).recv.served = some .c0 ∧
      (readout .receiving none).ctx .c0 = some (frame .readout) ∧ (readout .receiving none).lines ≤ (2 : Half).toNat ∧
      (1 : Half).toNat < (readout .receiving none).lines ∧ (readout .receiving none).recv.expected ≤ (0 : Half).toNat := by
  decide

theorem witness_ReadoutsEnd :
    (readout .receiving none).portQuiet ∧ (readout .receiving none).recv.served = some .c0 ∧
      (readout .receiving none).ctx .c0 = some (frame .readout) ∧
      (readout .receiving none).inPhase (other .c0) .gap = false ∧ (readout .receiving none).recv.state = .receiving ∧
      (readout .expecting none).recv.state ≠ .idle ∧
      isDue (readout .expecting none).now (readout .expecting none).recv.timer = true ∧
      isDue (readout .expecting none).now (some later) = false ∧
      ((readout .receiving (some { frame .exposing with endPending := true })).ctx (other .c0)).any
        (fun g => decide (g.phase = .exposing) && g.endPending) = true := by
  unfold State.portQuiet State.noneWaits State.noFlushRecord; decide

theorem witness_ReadoutsEnd_flush :
    readoutHoldsFlush.recv.served = some .c0 ∧ readoutHoldsFlush.ctx .c0 = some (frame .readout) ∧
      readoutHoldsFlush.recv.state = .receiving ∧ isDue readoutHoldsFlush.now readoutHoldsFlush.recv.timer = true ∧
      readoutHoldsFlush.flushRecord.isSome = true ∧ readoutHoldsFlush.noneWaits ∧
      readoutHoldsFlush.sensor.staged ≠ [] ∧ readoutHoldsFlush.blocksFlush (other .c0) = false := by
  unfold State.noneWaits; decide

theorem witness_ReadoutsEnd_gap :
    (readout .receiving (some (frame .gap))).portQuiet ∧ (readout .receiving (some (frame .gap))).recv.served = some .c0 ∧
      (readout .receiving (some (frame .gap))).ctx (other .c0) = some (frame .gap) ∧
      (readout .receiving (some (frame .gap))).request = some (request .software) ∧
      (readout .receiving (some (frame .gap))).recv.state = .receiving ∧
      (readout .receiving (some (frame .gap))).ctx .c0 = some (frame .readout) ∧ (frame .readout).phase = .readout ∧
      isDue (readout .receiving none).now (readout .receiving none).recv.timer = true := by
  unfold State.portQuiet State.noneWaits State.noFlushRecord; decide

/-- A slice of one row of `window0`. -/
def slice0 : Slice := { ctx := .c0, position := 0, offset := 0, data := List.replicate 16 1 }

/-- A slice in hand. -/
def offering : State := { readout .receiving none with cutter := { running.cutter with inHand := [slice0] } }

theorem witness_SlicesAreAdmitted :
    offering.listsBounded ∧ offering.cutter.inHand = [slice0] ∧ offering.ctx slice0.ctx = some (frame .readout) ∧
      (frame .readout).flags.overrun = false ∧ (offering.store.slices.map Slice.size).sum + slice0.size ≤ 131072 ∧
      ({ frame .readout with flags := { overrun := true } } : Frame).flags.overrun = true := by
  unfold State.listsBounded; decide

/-- A slice in hand, and a store that is full to its last byte. -/
def overrunning : State :=
  { offering with store := { slices := [{ slice0 with data := List.replicate 131072 1 }] } }

theorem witness_SlicesAreAdmitted_full :
    overrunning.listsBounded ∧ overrunning.cutter.inHand = [slice0] ∧ overrunning.ctx slice0.ctx = some (frame .readout) ∧
      (frame .readout).flags.overrun = false ∧ 131072 < (overrunning.store.slices.map Slice.size).sum + slice0.size := by
  have hs : (overrunning.store.slices.map Slice.size).sum = 131072 := by
    simp only [overrunning, List.map_cons, List.map_nil, List.sum_cons, List.sum_nil, Slice.size, List.length_replicate, Nat.add_zero]
  refine ⟨⟨by decide, by decide, by decide, by decide, by decide, by rw [hs]⟩, rfl, rfl, rfl, ?_⟩
  rw [hs]; decide

theorem witness_SlicesAreWritten :
    ({ readout .receiving none with store := { slices := [slice0] } } : State).store.slices = [slice0] ∧
      (readout .receiving none).ctx slice0.ctx = some (frame .readout) ∧
      (frame .readout).assignments[slice0.position]? =
        some { window := 15, buffer := some buffer0, written := 0, byteSize := 32, result := none } := by decide

/-- A frame that has closed GOOD. -/
def closed : Frame := { frame .closing with outcome := some .good }

theorem witness_FramesArePosted :
    (active .software (some closed) none).portQuiet ∧ (active .software (some closed) none).ring.setup = some setup0 ∧
      MayPost .c0 (entry .software) closed (active .software (some closed) none) ∧ closed.outcome = some .good := by
  unfold State.portQuiet State.noneWaits State.noFlushRecord MayPost; decide

theorem witness_FramesArePosted_not : ∀ e f, ¬ MayPost .c0 e f running := fun _ _ h => nomatch h.1

/-- RUNNING with this entry at the head. -/
def headed (e : Entry) : State := { running with sched := { running.sched with queue := [e] } }

theorem witness_RequestsEnd :
    (headed (entry .edge)).ring.setup = some setup0 ∧
      RequestOver { entry .edge with mark := .stopped } (headed { entry .edge with mark := .stopped }) ∧
      RequestOver { entry .edge with form := .rejected .badKind } (headed { entry .edge with form := .rejected .badKind }) ∧
      RequestOver { entry .edge with begun := 1 } (headed { entry .edge with begun := 1 }) ∧
      (entry .edge).request.all (fun r => decide (r.windows.Nodup ∧ ∀ m ∈ r.windows, m < running.cutter.windows.length)) =
        true ∧
      twoQueued.sched.queue = [entry .edge, { entry .edge with tag := 8 }] := by
  unfold RequestOver; decide

theorem witness_RequestsEnd_not : ∀ e, ¬ RequestOver e running := fun _ h => nomatch h.1

theorem witness_EngineTransactionsEnd :
    (withJob (.write 4 5) (withPort .engine (.write 4 5) running)).ring.setup = some setup0 ∧
      (withJob (.write 4 5) (withPort .engine (.write 4 5) running)).sensor.port =
        some { owner := .engine, op := .write 4 5, timer := due } ∧
      (withJob (.write 4 5) (withPort .engine (.write 4 5) running)).engine.job = some { tag := 8, work := .write 4 5 } ∧
      (withJob (.read 4) (withPort .engine (.read 4) running)).sensor.port =
        some { owner := .engine, op := .read 4, timer := due } ∧
      running.sensor.replayWaits = false ∧ running.sensor.flushWaits = false ∧ isDue running.now (some due) = true ∧
      running.sensor.port = none ∧ isDue running.now (some later) = false := by decide

theorem witness_EngineTransactionsEnd_cleared :
    (withPort .cleared (.write 4 5) running).sensor.port = some { owner := .cleared, op := .write 4 5, timer := due } ∧
      (withPort .cleared (.write 4 5) running).noneWaits ∧ (withPort .cleared (.write 4 5) running).noFlushRecord := by
  unfold State.noneWaits State.noFlushRecord; decide

/-- The state with these requesters waiting for the port. -/
def withWaits (replay flush engine : Bool) (s : State) : State :=
  { s with sensor := { s.sensor with replayWaits := replay, flushWaits := flush, engineWaits := engine } }

/-- A replay waits behind a transaction that a halt left on the port, with a STALE entry at address 511. -/
def replayWaiting : State :=
  withWaits true false false
    { withPort .cleared (.write 4 5) (powered .replaying running) with
      sensor :=
        { (withPort .cleared (.write 4 5) (powered .replaying running)).sensor with
          mirror := [(511, { stale := true, value := 5 })] } }

theorem witness_EngineTransactionsEnd_passes_on :
    (withWaits false true false (withJob (.write 4 5) (withPort .engine (.write 4 5) (withStaged [staged0] running)))).engine.job
        = some { tag := 8, work := .write 4 5 } ∧
      (withStaged [staged0] running).sensor.power = .ready ∧ (withStaged [staged0] running).sensor.flush = none ∧
      (withStaged [staged0] running).sensor.staged = [staged0] ∧ running.blocksFlush .c0 = false ∧
      running.blocksFlush .c1 = false ∧
      replayWaiting.sensor.replayWaits = true ∧ replayWaiting.sensor.power = .replaying ∧ replayWaiting.noFlushRecord ∧
      nextStale replayWaiting.sensor.replayPos (mirrorSet 4 { stale := false, value := 5 } replayWaiting.sensor.mirror) =
        some (511, { stale := true, value := 5 }) ∧
      (withWaits false false true (withJob (.read 7) (withPort .cleared (.write 4 5) running))).engine.job =
        some { tag := 8, work := .read 7 } ∧
      (Work.read 7).op = some (.read 7) := by
  unfold State.noFlushRecord; decide

/-- A flush whose first entry is on the port, with these entries behind it. -/
def flushing (rest : List Staged) : State :=
  { withPort .flush (.write 3 5) (withStaged ({ staged0 with inProgress := true } :: rest) running) with
    sensor :=
      { (withPort .flush (.write 3 5) (withStaged ({ staged0 with inProgress := true } :: rest) running)).sensor with
        flush := some { generation := 1, taken := 1 } } }

theorem witness_FlushWritesEnd :
    (flushing []).ring.setup = some setup0 ∧
      (flushing []).sensor.port = some { owner := .flush, op := .write 3 5, timer := due } ∧
      (flushing []).sensor.staged = [{ staged0 with inProgress := true }] ∧
      (flushing []).sensor.flush = some { generation := 1, taken := 1 } ∧ (flushing []).noneWaits ∧
      isDue (flushing []).now (some due) = true ∧ (flushing []).inPhase .c0 .gap = false ∧
      (flushing []).inPhase .c1 .gap = false ∧ (withJob .flush (flushing [])).flushRecord = some 8 ∧
      (flushing [staged0]).sensor.staged = [{ staged0 with inProgress := true }, staged0] := by
  unfold State.noneWaits; decide

/-- The flush ends with a context in GAP, in the same way after a halt and a new enable. -/
def flushGap (l : List Staged) : State :=
  { withStaged l (flushing []) with sched := (active .edge none none).sched, seq := (active .edge (some (frame .gap)) none).seq }

theorem witness_FlushWritesEnd_gap :
    (flushGap [{ staged0 with inProgress := true }]).ctx .c0 = some (frame .gap) ∧ (flushGap []).noneWaits ∧
      (flushGap []).inPhase (other .c0) .gap = false ∧ (flushGap []).request = some (request .edge) ∧
      (flushGap []).sensor.staged.head?.any Staged.inProgress = false ∧
      (flushGap [staged0]).sensor.staged.head?.any Staged.inProgress = false ∧ (flushGap [staged0]).noFlushRecord := by
  unfold State.noneWaits State.noFlushRecord; decide

theorem witness_FlushWritesEnd_passes_on :
    (withWaits false true true (withJob (.read 7) (flushing []))).sensor.replayWaits = false ∧
      (withWaits false true true (withJob (.read 7) (flushing []))).sensor.engineWaits = true ∧
      (withJob (.read 7) (flushing [])).engine.job = some { tag := 8, work := .read 7 } ∧
      (Work.read 7).op = some (.read 7) ∧
      (withWaits false true true (withJob (.read 7) (flushGap [{ staged0 with inProgress := true }]))).request =
        some (request .edge) ∧
      (withPort (.leftFlush 1) (.write 3 5) running).sensor.port =
        some { owner := .leftFlush 1, op := .write 3 5, timer := due } ∧
      (withPort (.leftFlush 1) (.write 3 5) running).noneWaits ∧
      (withPort (.leftFlush 1) (.write 3 5) running).noFlushRecord ∧
      (withWaits false true false (withPort (.leftFlush 1) (.write 3 5) (withStaged [staged0] running))).sensor.staged =
        [staged0] := by
  unfold State.noneWaits State.noFlushRecord; decide

/-- The sensor settles with the settle timer due, a STALE entry at address 511, and a power record in hand. -/
def settling (replay : Bool) : State :=
  withJob (.power true replay false)
    { powered .settling running with
      sensor :=
        { (powered .settling running).sensor with replayFlag := replay, mirror := [(511, { stale := true, value := 5 })] } }

theorem witness_SettleAndReplay :
    (settling true).sensor.power = .settling ∧ isDue (settling true).now (settling true).sensor.settle = true ∧
      (settling true).powerForm ∧ (settling true).replayForm ∧ (settling true).noneWaits ∧ (settling true).noFlushRecord ∧
      (settling true).sensor.port = none ∧ (withPort .cleared (.read 1) (settling true)).sensor.port ≠ none ∧
      (settling true).engine.job = some { tag := 8, work := .power true true false } ∧
      nextStale 0 (settling true).sensor.mirror = some (511, { stale := true, value := 5 }) ∧
      (settling false).sensor.replayFlag = false ∧ (settling false).ring.setup = some setup0 ∧
      (settling false).powerForm ∧ (settling false).replayForm ∧ (settling false).noneWaits ∧
      (settling false).noFlushRecord ∧ (settling false).inPhase .c0 .gap = false ∧
      (settling false).inPhase .c1 .gap = false ∧
      ¬ (running.sensor.power = .settling ∧ isDue running.now running.sensor.settle = true) :=
  ⟨rfl, rfl, powerForm_of _ (by decide) (by decide) rfl rfl, ⟨fun _ => ⟨rfl, rfl, rfl⟩, fun _ h => nomatch h⟩,
    ⟨rfl, rfl, rfl⟩, rfl, rfl, by decide, rfl, rfl, rfl, rfl, powerForm_of _ (by decide) (by decide) rfl rfl,
    ⟨fun _ => ⟨rfl, rfl, rfl⟩, fun _ h => nomatch h⟩, ⟨rfl, rfl, rfl⟩, rfl, rfl, rfl, by decide⟩

/-- The sensor settles with a context in GAP and an ON that a halt and a new enable have joined to the power-up. -/
def settlingGap : State :=
  withJob (.power false true true)
    { settling false with sched := (active .edge none none).sched, seq := (active .edge (some (frame .gap)) none).seq }

theorem witness_SettleAndReplay_gap :
    settlingGap.ctx .c0 = some (frame .gap) ∧ settlingGap.inPhase (other .c0) .gap = false ∧
      settlingGap.request = some (request .edge) ∧
      settlingGap.engine.job = some { tag := 8, work := .power false true true } ∧
      (Work.power false true true).address = none ∧ settlingGap.sensor.port = none ∧ settlingGap.noneWaits := by
  unfold State.noneWaits; decide

/-- The replay writes address 3, with these entries behind it. -/
def replaying (more : List (Nat × MirrorEntry)) : State :=
  { withPort .replay (.write 3 5) (powered .replaying running) with
    sensor :=
      { (withPort .replay (.write 3 5) (powered .replaying running)).sensor with
        replayPos := 4, mirror := (3, { stale := true, value := 5 }) :: more } }

theorem replaying_powerForm (more : List (Nat × MirrorEntry)) : (replaying more).powerForm :=
  ⟨rfl, ⟨(nomatch ·), (nomatch ·)⟩, (nomatch ·), fun _ => rfl⟩

theorem replaying_replayForm (more : List (Nat × MirrorEntry)) : (replaying more).replayForm :=
  ⟨fun h => absurd rfl h, fun t h _ => by cases h; show (3 : Half).toNat < 4; decide⟩

theorem witness_SettleAndReplay_next :
    (replaying [(511, { stale := true, value := 6 })]).sensor.port =
        some { owner := .replay, op := .write 3 5, timer := due } ∧
      mirrorWf (replaying [(511, { stale := true, value := 6 })]).sensor.mirror = true ∧ (3 : Half).toNat < 512 ∧
      nextStale 4 (replaying [(511, { stale := true, value := 6 })]).sensor.mirror =
        some (511, { stale := true, value := 6 }) ∧
      (replaying [(511, { stale := true, value := 6 })]).noFlushRecord ∧
      isDue (replaying [(511, { stale := true, value := 6 })]).now (some due) = true ∧
      nextStale 4 (replaying []).sensor.mirror = none ∧ mirrorWf (replaying []).sensor.mirror = true ∧
      (replaying []).ring.setup = some setup0 ∧ (replaying []).noneWaits ∧ (replaying []).noFlushRecord := by
  unfold State.noneWaits State.noFlushRecord; decide

/-- The last entry of a replay ends with a READ that waited for READY, or a FLUSH_STAGED with an entry staged. -/
theorem witness_SettleAndReplay_waiting :
    (withJob (.read 4) (replaying [])).engine.job = some { tag := 8, work := .read 4 } ∧
      (withJob .flush (withStaged [staged0] (replaying []))).blocksFlush .c0 = false ∧
      (withJob .flush (withStaged [staged0] (replaying []))).blocksFlush .c1 = false ∧
      (withJob .flush (withStaged [staged0] (replaying []))).sensor.flush = none ∧
      (withJob .flush (withStaged [staged0] (replaying []))).sensor.staged ≠ [] ∧
      (withJob .flush (withStaged [staged0] (replaying []))).noneWaits := by
  unfold State.noneWaits; decide

theorem witness_KeptColumnsFillTheOutput :
    firstFailed (windowChecks setup0 running.cutter.windows 15 window0) = none ∧ window0.keepsLine 1 = true := by decide

theorem witness_SegmentOrderPlacesEachPixel :
    isOrder (List.range 16) = true ∧ 16 % 16 = 0 ∧ (List.range 16).length = 16 ∧ 16 * 0 + 15 < 16 := by decide

theorem witness_SlicesFitTheirWindow :
    firstFailed (windowChecks setup0 running.cutter.windows 15 window0) = none ∧ window0.keepsLine 1 = true ∧
      window0.keptColumns[15]? = some 15 ∧
      firstFailed (windowChecks { setup0 with depth := 12 } running.cutter.windows 15 { window0 with format := .top8 }) =
        none ∧ ({ window0 with format := .top8 } : WindowDef).keptColumns[15]? = some 15 := by decide

/-- A frame in READOUT, a staged entry, a cached buffer, and the frame's end waiting. -/
def working : State :=
  { withStaged [staged0] (withWindow 1 (readout .receiving none)) with
    bufs := { cache := [cached] }
    pending := [.frameEnd 2] }

/-- The step that the invariant witnesses stand before has a next state. -/
theorem working_steps : isNext (step working) = true := by decide

theorem witness_StepKeepsListsAndTables : working.listsBounded ∧ working.tablesForm ∧ working.sensorForm := by
  refine ⟨by unfold State.listsBounded; decide, by unfold State.tablesForm; decide, ?_, by decide, ?_, ?_⟩
  · decide
  · intro t h; cases h
  · intro j a h; cases h

theorem witness_StepKeepsLineAndPower :
    working.lineFollows ∧ working.powerForm ∧ working.replayForm ∧ (pinHigh working).filterForm :=
  ⟨rfl, powerForm_of _ (by decide) (by decide) rfl rfl, ⟨fun _ => ⟨rfl, rfl, rfl⟩, fun _ h => nomatch h⟩,
    by unfold State.filterForm; decide⟩

theorem witness_StepKeepsFlushAndExposureApart :
    (flushing [staged0]).flushApart ∧ (flushing [staged0]).flushForm ∧ (flushing [staged0]).restForm := by
  refine ⟨⟨fun f h => ?_, fun t _ _ => rfl, fun t g h k => by cases h; cases k⟩, ⟨by decide, fun _ _ _ => rfl, fun f h => ?_⟩,
    by unfold State.restForm State.atRest; decide⟩
  · cases h; decide
  · cases h; exact ⟨by decide, _, _, _, rfl, rfl, rfl⟩

theorem witness_StepKeepsFramesApart : working.framesApart ∧ working.stopForm :=
  ⟨framesApart_of _ (by decide), stopForm_of _ rfl⟩

theorem witness_StepNeverOverrunsTheCompletionRing : working.creditForm ∧ working.restForm := by
  refine ⟨⟨?_, by decide, ?_, ?_, ?_, ?_, ?_, ?_, ?_⟩, ?_⟩
  · intro h; cases h
  · intro h; cases h
  · unfold State.atRest; decide
  · intro h; cases h
  · intro h; cases h
  · intro h; cases h
  · intro h; cases h
  · intro c; cases c <;> decide
  · unfold State.restForm State.atRest; decide

theorem witness_StepKeepsReferenceCounts : working.refsCounted ∧ working.restForm := by
  refine ⟨⟨rfl, by decide, ?_⟩, by unfold State.restForm State.atRest; decide⟩
  intro e he r hr
  simp only [working, withStaged, withWindow, readout, active, List.mem_singleton] at he
  subst he; cases hr; decide

end Sys2Proof.Tests
end

section
/-! SUPPORT for O58. What `State.framesApart` and `State.stopForm` look at, R29 without the receiver (`ContextsApart`, which
holds also inside an event) and the receiver apart from it (`ReceiverFollows`), with one rule for each change of the state
that they meet. -/

set_option Elab.async false

namespace Sys2Proof.Machine

open Sys2Proof

/-! ## What the two invariants look at -/

/-- The fields that `State.framesApart` looks at. -/
def State.framesView (s : State) :
    Option Frame × Option Frame × Bool × Bool × ReceiverState × Option CtxId × List Entry :=
  (s.seq.ctx0, s.seq.ctx1, s.seq.expose, s.seq.strobe, s.recv.state, s.recv.served, s.sched.queue)

/-- The fields that `State.stopForm` looks at. -/
def State.stopView (s : State) : StopMode × Option EndCause := (s.sched.stopMode, s.sched.endCause)

theorem framesView_of_unchanged {ps : List Part} {s t : State} (h : unchangedBut ps s t)
    (hps : ([Part.contexts, .lines, .receiver, .queue].all fun p => !ps.contains p) = true := by decide) :
    t.framesView = s.framesView := by
  simp only [List.all_cons, List.all_nil, Bool.and_true, Bool.and_eq_true, Bool.not_eq_true'] at hps
  obtain ⟨hc, hl, hr, hq⟩ := hps
  have contexts := h.get .contexts hc
  have lines := h.get .lines hl
  have receiver := h.get .receiver hr
  have queue := h.get .queue hq
  simp only [Part.same, Prod.mk.injEq] at contexts lines receiver queue
  simp [State.framesView, contexts, lines, receiver, queue]

theorem stopView_of_unchanged {ps : List Part} {s t : State} (h : unchangedBut ps s t)
    (hps : ps.contains .stop = false := by decide) : t.stopView = s.stopView := h.get .stop hps

theorem liveRequest_of_queue {s t : State} (h : t.sched.queue = s.sched.queue) : t.liveRequest = s.liveRequest := by
  unfold State.liveRequest; rw [h]

theorem ctx_of_contexts {ps : List Part} {s t : State} (h : unchangedBut ps s t) (c : CtxId)
    (hps : ps.contains .contexts = false := by decide) : t.ctx c = s.ctx c := by
  have contexts := h.get .contexts hps
  simp only [Part.same, Prod.mk.injEq] at contexts
  cases c
  · exact contexts.1
  · exact contexts.2

theorem ctx_of_view {s t : State} (h : t.framesView = s.framesView) (c : CtxId) : t.ctx c = s.ctx c := by
  simp only [State.framesView, Prod.mk.injEq] at h
  obtain ⟨h0, h1, -⟩ := h
  cases c
  · exact h0
  · exact h1

/-! ## R29 without the receiver, and the receiver -/

/-- The clauses of `State.framesApart` about the contexts and the lines. They hold also inside an event, while the receiver
has left a readout that its context has not. -/
structure ContextsApart (s : State) : Prop where
  before : ∀ c, s.beforeReadout c = true → s.beforeReadout (other c) = false
  readout : ∀ c, s.inPhase c .readout = true → s.inPhase (other c) .readout = false
  live : ∀ c, (s.ctx c).isSome = true → s.liveRequest.isSome = true
  expose : s.seq.expose = true → ∃ c, s.inPhase c .exposing = true
  strobe : s.seq.strobe = true → ∃ c, s.inPhase c .lead = true ∨ s.inPhase c .exposing = true
  returns : ∀ c f, s.ctx c = some f → f.returnAsked = true → f.phase = .reserving ∧ f.creditHeld = true

/-- The clauses of `State.framesApart` about the receiver: it serves the context in READOUT and no other (R76). -/
structure ReceiverFollows (s : State) : Prop where
  served : ∀ c, s.recv.served = some c ↔ s.inPhase c .readout = true
  idle : s.recv.state = .idle ↔ s.recv.served = none

theorem exists_ctx (c : CtxId) (P : CtxId → Prop) : (∃ d, P d) ↔ P c ∨ P (other c) := by
  constructor
  · rintro ⟨d, hd⟩; cases c <;> cases d <;> simp [other, hd]
  · rintro (h | h) <;> exact ⟨_, h⟩

theorem forall_ctx (c : CtxId) (P : CtxId → Prop) : (∀ d, P d) ↔ P c ∧ P (other c) := by
  constructor
  · exact fun h => ⟨h _, h _⟩
  · rintro ⟨h, k⟩ d; cases c <;> cases d <;> assumption

theorem framesApart_iff (s : State) : s.framesApart ↔ ContextsApart s ∧ ReceiverFollows s := by
  have returns : (∀ c, (s.ctx c).all (fun f => !f.returnAsked || (decide (f.phase = .reserving) && f.creditHeld)) = true) ↔
      ∀ c f, s.ctx c = some f → f.returnAsked = true → f.phase = .reserving ∧ f.creditHeld = true := by
    refine forall_congr' fun c => ?_
    cases s.ctx c with
    | none => simp
    | some f => cases hr : f.returnAsked <;> simp [hr]
  unfold State.framesApart
  rw [returns]
  constructor
  · rintro ⟨before, readout, live, served, idle, expose, strobe, returns⟩
    refine ⟨⟨?_, ?_, live, ?_, ?_, returns⟩, ⟨served, idle⟩⟩
    · rw [forall_ctx .c0]; simp only [other]; grind
    · rw [forall_ctx .c0]; simp only [other]; grind
    · rw [exists_ctx .c0]; exact expose
    · rw [exists_ctx .c0]; exact strobe
  · rintro ⟨⟨before, readout, live, expose, strobe, returns⟩, ⟨served, idle⟩⟩
    rw [exists_ctx .c0] at expose strobe
    refine ⟨fun h => ?_, fun h => ?_, live, served, idle, expose, strobe, returns⟩
    · exact absurd h.2 (by simpa [other] using before .c0 h.1)
    · exact absurd h.2 (by simpa [other] using readout .c0 h.1)

theorem ContextsApart.of_view {s t : State} (hs : ContextsApart s) (h : t.framesView = s.framesView) :
    ContextsApart t := by
  have ctx := ctx_of_view h
  simp only [State.framesView, Prod.mk.injEq] at h
  obtain ⟨-, -, expose, strobe, -, -, queue⟩ := h
  have phase : ∀ c p, t.inPhase c p = s.inPhase c p := fun c p => by simp only [State.inPhase, ctx]
  have before : ∀ c, t.beforeReadout c = s.beforeReadout c := fun c => by simp only [State.beforeReadout, ctx]
  obtain ⟨h1, h2, h3, h4, h5, h6⟩ := hs
  constructor <;> simp only [ctx, phase, before, expose, strobe, liveRequest_of_queue queue] <;> assumption

theorem ReceiverFollows.of_view {s t : State} (hs : ReceiverFollows s) (h : t.framesView = s.framesView) :
    ReceiverFollows t := by
  have ctx := ctx_of_view h
  simp only [State.framesView, Prod.mk.injEq] at h
  obtain ⟨-, -, -, -, state, served, -⟩ := h
  exact ⟨fun c => by simp only [State.inPhase, ctx, served]; exact hs.served c, by rw [state, served]; exact hs.idle⟩

theorem framesApart_of_view {s t : State} (h : t.framesView = s.framesView) (hs : s.framesApart) : t.framesApart := by
  rw [framesApart_iff] at hs ⊢
  exact ⟨hs.1.of_view h, hs.2.of_view h⟩

theorem stopForm_of_view {s t : State} (h : t.stopView = s.stopView) (hs : s.stopForm) : t.stopForm := by
  simp only [State.stopView, Prod.mk.injEq] at h
  unfold State.stopForm
  rw [h.1, h.2]
  exact hs

/-! ## Rules for one context -/

theorem inPhase_of_ctx {s : State} {c : CtxId} {f : Frame} (h : s.ctx c = some f) (p : Phase) :
    s.inPhase c p = decide (f.phase = p) := by simp [State.inPhase, h]

/-- A frame's phase is one of those before READOUT. -/
def Frame.beforeReadout (f : Frame) : Bool := !decide (f.phase = .readout) && !decide (f.phase = .closing)

theorem beforeReadout_of_ctx {s : State} {c : CtxId} {f : Frame} (h : s.ctx c = some f) :
    s.beforeReadout c = f.beforeReadout := by simp [State.beforeReadout, h, Frame.beforeReadout]

theorem ctx_of_inPhase {s : State} {c : CtxId} {p : Phase} (h : s.inPhase c p = true) :
    ∃ f, s.ctx c = some f ∧ f.phase = p := by
  simpa [State.inPhase, Option.any_eq_true] using h

@[simp] theorem setCtx_inPhase_same (s : State) (c : CtxId) (f : Option Frame) (p : Phase) :
    (s.setCtx c f).inPhase c p = f.any fun f => decide (f.phase = p) := by simp [State.inPhase]

@[simp] theorem setCtx_inPhase_other (s : State) (c : CtxId) (f : Option Frame) (p : Phase) :
    (s.setCtx c f).inPhase (other c) p = s.inPhase (other c) p := by simp [State.inPhase]

@[simp] theorem setCtx_beforeReadout_same (s : State) (c : CtxId) (f : Option Frame) :
    (s.setCtx c f).beforeReadout c = f.any Frame.beforeReadout := by
  rw [State.beforeReadout, setCtx_ctx_same]; rfl

@[simp] theorem setCtx_beforeReadout_other (s : State) (c : CtxId) (f : Option Frame) :
    (s.setCtx c f).beforeReadout (other c) = s.beforeReadout (other c) := by simp [State.beforeReadout]

@[simp] theorem setCtx_liveRequest (s : State) (c : CtxId) (f : Option Frame) :
    (s.setCtx c f).liveRequest = s.liveRequest := liveRequest_of_queue (by simp)

@[simp] theorem setCtx_expose (s : State) (c : CtxId) (f : Option Frame) : (s.setCtx c f).seq.expose = s.seq.expose := by
  cases c <;> rfl

@[simp] theorem setCtx_strobe (s : State) (c : CtxId) (f : Option Frame) : (s.setCtx c f).seq.strobe = s.seq.strobe := by
  cases c <;> rfl

theorem ContextsApart.expose_other {s : State} (h : ContextsApart s) {c : CtxId} (hc : s.inPhase c .exposing = false)
    (he : s.seq.expose = true) : s.inPhase (other c) .exposing = true := by
  obtain hx | hx := (exists_ctx c _).mp (h.expose he)
  · simp [hc] at hx
  · exact hx

theorem ContextsApart.strobe_other {s : State} (h : ContextsApart s) {c : CtxId} (hl : s.inPhase c .lead = false)
    (hx : s.inPhase c .exposing = false) (hs : s.seq.strobe = true) :
    s.inPhase (other c) .lead = true ∨ s.inPhase (other c) .exposing = true := by
  obtain hc | hc := (exists_ctx c _).mp (h.strobe hs)
  · simp [hl, hx] at hc
  · exact hc

/-- A context takes a frame: what R29 asks of the frame's phase, given the other context and the lines. -/
theorem ContextsApart.setCtx {s : State} (h : ContextsApart s) (c : CtxId) (f : Frame)
    (live : s.liveRequest.isSome = true)
    (before : f.beforeReadout = true → s.beforeReadout (other c) = false)
    (readout : f.phase = .readout → s.inPhase (other c) .readout = false)
    (expose : s.seq.expose = true → f.phase = .exposing ∨ s.inPhase (other c) .exposing = true)
    (strobe : s.seq.strobe = true → (f.phase = .lead ∨ f.phase = .exposing) ∨
      s.inPhase (other c) .lead = true ∨ s.inPhase (other c) .exposing = true)
    (returns : f.returnAsked = true → f.phase = .reserving ∧ f.creditHeld = true) :
    ContextsApart (s.setCtx c (some f)) where
  before := (forall_ctx c _).mpr ⟨by simpa using before,
    by simpa using fun k => eq_false_of_ne_true fun hf => by simp [before hf] at k⟩
  readout := (forall_ctx c _).mpr ⟨by simpa using readout, by simpa using fun k hf => by simp [readout hf] at k⟩
  live := fun _ _ => by simpa using live
  expose := fun he => (exists_ctx c _).mpr (by simpa using expose (by simpa using he))
  strobe := fun hs => (exists_ctx c _).mpr (by simpa using strobe (by simpa using hs))
  returns := (forall_ctx c _).mpr ⟨fun g hg => by simp at hg; subst hg; exact returns,
    fun g hg => h.returns (other c) g (by simpa using hg)⟩

/-- A context whose frame has closed becomes FREE. -/
theorem ContextsApart.freeCtx {s : State} (h : ContextsApart s) (c : CtxId) (hc : s.inPhase c .closing = true) :
    ContextsApart (s.setCtx c none) := by
  obtain ⟨f, hf, hp⟩ := ctx_of_inPhase hc
  have quiet : ∀ p, p ≠ .closing → s.inPhase c p = false := fun p hne => by
    rw [inPhase_of_ctx hf, hp]; simpa using Ne.symm hne
  constructor
  · exact (forall_ctx c _).mpr ⟨by simp, by simp⟩
  · exact (forall_ctx c _).mpr ⟨by simp, by simp⟩
  · exact (forall_ctx c _).mpr ⟨by simp, by simpa using h.live (other c)⟩
  · intro he
    exact ⟨other c, by simpa using h.expose_other (quiet _ (by decide)) (by simpa using he)⟩
  · intro hs
    exact ⟨other c, by simpa using h.strobe_other (quiet _ (by decide)) (quiet _ (by decide)) (by simpa using hs)⟩
  · exact (forall_ctx c _).mpr ⟨by simp, fun g hg => h.returns (other c) g (by simpa using hg)⟩

/-- EXPOSE and STROBE change: each stands only for a context that exposes or leads (R44). -/
theorem ContextsApart.setLines {s : State} (h : ContextsApart s) (e b : Bool)
    (expose : e = true → ∃ c, s.inPhase c .exposing = true)
    (strobe : b = true → ∃ c, s.inPhase c .lead = true ∨ s.inPhase c .exposing = true) :
    ContextsApart { s with seq := { s.seq with expose := e, strobe := b } } :=
  { before := h.before, readout := h.readout, live := h.live, expose := expose, strobe := strobe, returns := h.returns }

theorem ContextsApart.setRecv {s : State} (h : ContextsApart s) (r : Receiver) : ContextsApart { s with recv := r } :=
  { before := h.before, readout := h.readout, live := h.live, expose := h.expose, strobe := h.strobe,
    returns := h.returns }

theorem ReceiverFollows.setCtx {s : State} (h : ReceiverFollows s) (c : CtxId) (f : Option Frame)
    (hf : (f.any fun f => decide (f.phase = .readout)) = s.inPhase c .readout) : ReceiverFollows (s.setCtx c f) where
  served := (forall_ctx c _).mpr ⟨by simpa [hf] using h.served c, by simpa using h.served (other c)⟩
  idle := by simpa using h.idle

/-- An idle receiver serves no context, and none is in READOUT. -/
theorem ReceiverFollows.of_idle {s : State} (state : s.recv.state = .idle) (served : s.recv.served = none)
    (h : ∀ c, s.inPhase c .readout = false) : ReceiverFollows s where
  served := fun c => by simp [served, h c]
  idle := by simp [state, served]

end Sys2Proof.Machine
end

section
/-! SUPPORT for O58. `Keeps`: an operation carries both invariants over. The rules for a change to one frame: it stays in its
phase, goes on before READOUT, or closes. -/

set_option Elab.async false

namespace Sys2Proof.Machine

open Sys2Proof

/-! ## Operations that keep both invariants -/

/-- What O58 says of a step, for any operation: both invariants go on. -/
def Keeps (s t : State) : Prop := (s.framesApart → t.framesApart) ∧ (s.stopForm → t.stopForm)

theorem Keeps.refl (s : State) : Keeps s s := ⟨id, id⟩

theorem Keeps.trans {s t u : State} (h : Keeps s t) (k : Keeps t u) : Keeps s u := ⟨k.1 ∘ h.1, k.2 ∘ h.2⟩

theorem Keeps.ite {s t u : State} {p : Prop} [Decidable p] (h : p → Keeps s t) (k : ¬ p → Keeps s u) :
    Keeps s (if p then t else u) := by
  split
  · exact h ‹_›
  · exact k ‹_›

/-- An operation that changes none of the fields the invariants look at. -/
theorem Keeps.of_view {s t : State} (h : t.framesView = s.framesView := by rfl)
    (k : t.stopView = s.stopView := by rfl) : Keeps s t := ⟨framesApart_of_view h, stopForm_of_view k⟩

theorem Keeps.of_unchanged {ps : List Part} {s t : State} (h : unchangedBut ps s t)
    (hps : ([Part.contexts, .lines, .receiver, .queue].all fun p => !ps.contains p) = true := by decide)
    (hstop : ps.contains .stop = false := by decide) : Keeps s t :=
  .of_view (framesView_of_unchanged h hps) (stopView_of_unchanged h hstop)

/-- An operation whose frame leaves the stop mode and the end cause. -/
theorem Keeps.of_apart {ps : List Part} {s t : State} (h : s.framesApart → t.framesApart) (k : unchangedBut ps s t)
    (hstop : ps.contains .stop = false := by decide) : Keeps s t :=
  ⟨h, stopForm_of_view (stopView_of_unchanged k hstop)⟩

/-! ## Changes to one frame -/

theorem updCtx_of_ctx {s : State} {c : CtxId} {f : Frame} (h : s.ctx c = some f) (g : Frame → Frame) :
    s.updCtx c g = s.setCtx c (some (g f)) := by simp [State.updCtx, h]

theorem updCtx_ctx_of_ctx {s : State} {c : CtxId} {f : Frame} (h : s.ctx c = some f) (g : Frame → Frame) :
    (s.updCtx c g).ctx c = some (g f) := by simp [h]

theorem updCtx_free {s : State} {c : CtxId} (h : s.ctx c = none) (g : Frame → Frame) : s.updCtx c g = s := by
  simp [State.updCtx, h]

/-- A frame changes and stays in its phase. -/
theorem ContextsApart.setCtx_samePhase {s : State} (hs : ContextsApart s) {c : CtxId} {f g : Frame} (hf : s.ctx c = some f)
    (phase : g.phase = f.phase) (returns : g.returnAsked = true → g.phase = .reserving ∧ g.creditHeld = true) :
    ContextsApart (s.setCtx c (some g)) := by
  have before : g.beforeReadout = s.beforeReadout c := by
    rw [beforeReadout_of_ctx hf, Frame.beforeReadout, Frame.beforeReadout, phase]
  refine hs.setCtx c g ?_ ?_ ?_ ?_ ?_ returns
  · exact hs.live c (by simp [hf])
  · rw [before]; exact hs.before c
  · rw [phase]; exact fun h => hs.readout c (by simp [inPhase_of_ctx hf, h])
  · simpa [phase, exists_ctx c, inPhase_of_ctx hf] using hs.expose
  · simpa [phase, exists_ctx c, inPhase_of_ctx hf] using hs.strobe

theorem framesApart_setCtx_samePhase {s : State} (hs : s.framesApart) {c : CtxId} {f g : Frame} (hf : s.ctx c = some f)
    (phase : g.phase = f.phase) (returns : g.returnAsked = true → g.phase = .reserving ∧ g.creditHeld = true) :
    (s.setCtx c (some g)).framesApart := by
  rw [framesApart_iff] at hs ⊢
  exact ⟨hs.1.setCtx_samePhase hf phase returns, hs.2.setCtx c _ (by simp [phase, inPhase_of_ctx hf])⟩

/-- A frame changes, stays in its phase and asks for no new return. -/
theorem ContextsApart.updCtx {s : State} (hs : ContextsApart s) (c : CtxId) (g : Frame → Frame)
    (phase : ∀ f, (g f).phase = f.phase := by intros; rfl)
    (asked : ∀ f, (g f).returnAsked = true → f.returnAsked = true := by exact fun _ h => h)
    (credit : ∀ f, f.creditHeld = true → (g f).creditHeld = true := by exact fun _ h => h) :
    ContextsApart (s.updCtx c g) := by
  cases hf : s.ctx c with
  | none => rwa [updCtx_free hf]
  | some f =>
    rw [updCtx_of_ctx hf]
    refine hs.setCtx_samePhase hf (phase f) fun h => ?_
    have returns := hs.returns c f hf (asked f h)
    exact ⟨(phase f).trans returns.1, credit f returns.2⟩

@[simp] theorem updCtx_inPhase_other (s : State) (c : CtxId) (g : Frame → Frame) (p : Phase) :
    (s.updCtx c g).inPhase (other c) p = s.inPhase (other c) p := by simp [State.inPhase]

/-- A change that leaves the frame's phase leaves what phase its context is in. -/
theorem updCtx_inPhase_same (s : State) (c : CtxId) (g : Frame → Frame) (p : Phase)
    (phase : ∀ f, (g f).phase = f.phase := by intros; rfl) : (s.updCtx c g).inPhase c p = s.inPhase c p := by
  cases hf : s.ctx c <;> simp [State.inPhase, hf, phase]

theorem updCtx_keeps (c : CtxId) (g : Frame → Frame) (s : State)
    (phase : ∀ f, (g f).phase = f.phase := by intros; rfl)
    (asked : ∀ f, (g f).returnAsked = true → f.returnAsked = true := by exact fun _ h => h)
    (credit : ∀ f, f.creditHeld = true → (g f).creditHeld = true := by exact fun _ h => h) : Keeps s (s.updCtx c g) := by
  refine .of_apart (fun hs => ?_) (updCtx_frame c g s)
  rw [framesApart_iff] at hs ⊢
  have same : ∀ d, (s.updCtx c g).inPhase d .readout = s.inPhase d .readout :=
    (forall_ctx c _).mpr ⟨updCtx_inPhase_same s c g _ phase, updCtx_inPhase_other s c g _⟩
  have recv : (s.updCtx c g).recv = s.recv := by unfold State.updCtx; split <;> simp
  exact ⟨hs.1.updCtx c g phase asked credit,
    ⟨fun d => by rw [same, recv]; exact hs.2.served d, by rw [recv]; exact hs.2.idle⟩⟩

/-- A frame goes on from a phase before READOUT to another one, or closes; a line that stands must have another context to
stand for, or this one still. -/
theorem framesApart_setCtx_move {s : State} (hs : s.framesApart) {c : CtxId} {f g : Frame} (hf : s.ctx c = some f)
    (source : f.beforeReadout = true) (target : g.phase ≠ .readout)
    (expose : s.seq.expose = true → f.phase = .exposing → g.phase = .exposing)
    (strobe : s.seq.strobe = true → f.phase = .lead ∨ f.phase = .exposing → g.phase = .lead ∨ g.phase = .exposing)
    (returns : g.returnAsked = false) : (s.setCtx c (some g)).framesApart := by
  rw [framesApart_iff] at hs ⊢
  obtain ⟨apart, recv⟩ := hs
  refine ⟨apart.setCtx c g ?_ ?_ ?_ ?_ ?_ ?_, recv.setCtx c _ ?_⟩
  · exact apart.live c (by simp [hf])
  · exact fun _ => apart.before c (by rw [beforeReadout_of_ctx hf, source])
  · exact fun h => absurd h target
  · intro he
    by_cases hx : f.phase = .exposing
    · exact .inl (expose he hx)
    · exact .inr (apart.expose_other (by simp [inPhase_of_ctx hf, hx]) he)
  · intro hb
    by_cases hx : f.phase = .lead ∨ f.phase = .exposing
    · exact .inl (strobe hb hx)
    · rw [not_or] at hx
      exact .inr (apart.strobe_other (by simp [inPhase_of_ctx hf, hx]) (by simp [inPhase_of_ctx hf, hx]) hb)
  · simp [returns]
  · have : f.phase ≠ .readout := by rintro h; simp [Frame.beforeReadout, h] at source
    simp [inPhase_of_ctx hf, target, this]

/-- A frame that leads, exposes or waits has no return asked for (R96). -/
theorem returnAsked_false {s : State} (hs : s.framesApart) {c : CtxId} {f : Frame} (hf : s.ctx c = some f)
    (hp : f.phase ≠ .reserving) : f.returnAsked = false := by
  by_contra h
  exact hp (((framesApart_iff s).mp hs).1.returns c f hf (by simpa using h)).1

/-! ## Closing a frame -/

theorem noteClose_framesView (o : FrameOutcome) (s : State) : (s.noteClose o).framesView = s.framesView := rfl

theorem noteClose_stopForm (o : FrameOutcome) (s : State) (hs : s.stopForm) : (s.noteClose o).stopForm := by
  intro h
  have cause : s.sched.endCause ≠ none := hs h
  show (s.sched.endCause <|> o.endCause) ≠ none
  cases hc : s.sched.endCause with
  | none => exact absurd hc cause
  | some e => simp

theorem closeFrame_of_ctx {s : State} {c : CtxId} {f : Frame} (h : s.ctx c = some f) (o : FrameOutcome) :
    s.closeFrame c o = (s.setCtx c (some (f.close o))).noteClose (f.outcome.getD o) := by simp [State.closeFrame, h]

theorem closeFrame_free {s : State} {c : CtxId} (h : s.ctx c = none) (o : FrameOutcome) : s.closeFrame c o = s := by
  simp [State.closeFrame, h]

theorem closeFrame_stopForm (c : CtxId) (o : FrameOutcome) (s : State) (hs : s.stopForm) :
    (s.closeFrame c o).stopForm := by
  cases hf : s.ctx c with
  | none => rwa [closeFrame_free hf]
  | some f =>
    rw [closeFrame_of_ctx hf]
    exact noteClose_stopForm _ _ (stopForm_of_view (stopView_of_unchanged (setCtx_frame _ _ _)) hs)

@[simp] theorem closeFrame_ctx_same (c : CtxId) (o : FrameOutcome) (s : State) :
    (s.closeFrame c o).ctx c = (s.ctx c).map (Frame.close o) := by
  cases hf : s.ctx c with
  | none => simp [closeFrame_free hf, hf]
  | some f => rw [closeFrame_of_ctx hf]; exact setCtx_ctx_same s c _

@[simp] theorem closeFrame_ctx_other (c : CtxId) (o : FrameOutcome) (s : State) :
    (s.closeFrame c o).ctx (other c) = s.ctx (other c) := by
  cases hf : s.ctx c with
  | none => rw [closeFrame_free hf]
  | some f => rw [closeFrame_of_ctx hf]; exact setCtx_ctx_other s c _

/-- No line stands for the context: STROBE is off in LEAD, and both lines are off in EXPOSING. -/
def State.linesOff (s : State) (c : CtxId) : Prop :=
  (s.inPhase c .exposing = true → s.seq.expose = false ∧ s.seq.strobe = false) ∧
    (s.inPhase c .lead = true → s.seq.strobe = false)

theorem closeFrame_contextsApart {s : State} (hs : ContextsApart s) (c : CtxId) (o : FrameOutcome)
    (lines : s.linesOff c) : ContextsApart (s.closeFrame c o) := by
  cases hf : s.ctx c with
  | none => rwa [closeFrame_free hf]
  | some f =>
    rw [closeFrame_of_ctx hf]
    refine ContextsApart.of_view (hs.setCtx c (f.close o) ?_ ?_ ?_ ?_ ?_ ?_) (noteClose_framesView _ _)
    · exact hs.live c (by simp [hf])
    · simp [Frame.beforeReadout, Frame.close]
    · simp [Frame.close]
    · intro he
      exact .inr (hs.expose_other (eq_false_of_ne_true fun h => by simp [(lines.1 h).1] at he) he)
    · intro hb
      exact .inr (hs.strobe_other (eq_false_of_ne_true fun h => by simp [lines.2 h] at hb)
        (eq_false_of_ne_true fun h => by simp [(lines.1 h).2] at hb) hb)
    · simp [Frame.close]

/-- A context outside READOUT for which no line stands closes. -/
theorem closeFrame_keeps (c : CtxId) (o : FrameOutcome) (s : State) (readout : s.inPhase c .readout = false)
    (lines : s.linesOff c) : Keeps s (s.closeFrame c o) := by
  refine ⟨fun hs => ?_, closeFrame_stopForm c o s⟩
  rw [framesApart_iff] at hs ⊢
  refine ⟨closeFrame_contextsApart hs.1 c o lines, ?_⟩
  cases hf : s.ctx c with
  | none => rw [closeFrame_free hf]; exact hs.2
  | some f =>
    rw [closeFrame_of_ctx hf]
    exact ReceiverFollows.of_view (hs.2.setCtx c _ (by simp [readout, Frame.close])) (noteClose_framesView _ _)

theorem closeFrame_keeps_of_phase {s : State} {c : CtxId} {f : Frame} (hf : s.ctx c = some f) (o : FrameOutcome)
    (readout : f.phase ≠ .readout) (exposing : f.phase ≠ .exposing) (lead : f.phase ≠ .lead) :
    Keeps s (s.closeFrame c o) :=
  closeFrame_keeps c o s (by simp [inPhase_of_ctx hf, readout])
    ⟨by simp [inPhase_of_ctx hf, exposing], by simp [inPhase_of_ctx hf, lead]⟩

end Sys2Proof.Machine
end

section
/-! SUPPORT for O58. The operations of the Frame Contexts and of the Capture Queue keep both invariants: lines and exposure,
GAP and WAIT_START, the end of a readout, start and end events, stops. -/

set_option Elab.async false

namespace Sys2Proof.Machine

open Sys2Proof

/-! ## Lines and exposure (R39, R40, R44) -/

theorem dropLines_keeps (e b : Bool) (s : State) (expose : e = true → s.seq.expose = true)
    (strobe : b = true → s.seq.strobe = true) :
    Keeps s { s with seq := { s.seq with expose := e, strobe := b } } := by
  refine .of_apart (fun hs => ?_) (set_lines s e b)
  rw [framesApart_iff] at hs ⊢
  obtain ⟨apart, recv⟩ := hs
  exact ⟨apart.setLines e b (apart.expose ∘ expose) (apart.strobe ∘ strobe), ⟨recv.served, recv.idle⟩⟩

theorem releaseLines_keeps (s : State) : Keeps s s.releaseLines := dropLines_keeps _ _ s nofun nofun

theorem dropStrobe_keeps (s : State) : Keeps s { s with seq := { s.seq with strobe := false } } :=
  dropLines_keeps s.seq.expose false s id nofun

@[simp] theorem releaseLines_ctx (s : State) (c : CtxId) : s.releaseLines.ctx c = s.ctx c := by cases c <;> rfl

/-- The lines are asserted for a context that leads or exposes. -/
theorem framesApart_setLines {s : State} (hs : s.framesApart) (c : CtxId) (e b : Bool)
    (expose : e = true → s.seq.expose = true ∨ s.inPhase c .exposing = true)
    (strobe : b = true → s.seq.strobe = true ∨ s.inPhase c .lead = true ∨ s.inPhase c .exposing = true) :
    State.framesApart { s with seq := { s.seq with expose := e, strobe := b } } := by
  rw [framesApart_iff] at hs ⊢
  obtain ⟨apart, recv⟩ := hs
  refine ⟨apart.setLines e b (fun h => ?_) (fun h => ?_), ⟨recv.served, recv.idle⟩⟩
  · exact (expose h).elim apart.expose fun hx => ⟨c, hx⟩
  · exact (strobe h).elim apart.strobe fun hx => ⟨c, hx⟩

theorem enterExposing_keeps (r : CaptureRequest) (c : CtxId) (s : State)
    (h : s.inPhase c .waitStart = true ∨ s.inPhase c .lead = true) : Keeps s (s.enterExposing r c) := by
  refine .of_apart (fun hs => ?_) (enterExposing_frame r c s)
  obtain ⟨f, hf, hp⟩ : ∃ f, s.ctx c = some f ∧ (f.phase = .waitStart ∨ f.phase = .lead) := by
    obtain h | h := h <;> obtain ⟨f, hf, hp⟩ := ctx_of_inPhase h
    · exact ⟨f, hf, .inl hp⟩
    · exact ⟨f, hf, .inr hp⟩
  have asked : f.returnAsked = false := returnAsked_false hs hf (by obtain hp | hp := hp <;> simp [hp])
  unfold State.enterExposing
  rw [updCtx_of_ctx hf]
  refine framesApart_setLines (framesApart_setCtx_move hs hf ?_ ?_ ?_ ?_ ?_) c _ _ ?_ ?_
  · obtain hp | hp := hp <;> simp [Frame.beforeReadout, hp]
  · simp
  · simp
  · simp
  · exact asked
  · simp
  · simp

theorem startCondition_keeps (r : CaptureRequest) (c : CtxId) (s : State) (h : s.inPhase c .waitStart = true) :
    Keeps s (s.startCondition r c) := by
  obtain ⟨f, hf, hp⟩ := ctx_of_inPhase h
  unfold State.startCondition
  refine (updCtx_keeps c (fun f => { f with trigTimer := none }) s).trans ?_
  have hf' : (s.updCtx c fun f => { f with trigTimer := none }).ctx c = some { f with trigTimer := none } := by simp [hf]
  generalize s.updCtx c (fun f => { f with trigTimer := none }) = u at hf' ⊢
  refine .ite (fun _ => .of_apart (fun hs => ?_) (((updCtx_frame c _ u).widen [.contexts, .lines]).trans
    ((set_lines _ _ true).widen _))) fun _ => enterExposing_keeps r c u (.inl (by simp [inPhase_of_ctx hf', hp]))
  have asked : f.returnAsked = false := returnAsked_false (f := { f with trigTimer := none }) hs hf' (by simp [hp])
  rw [updCtx_of_ctx hf']
  refine framesApart_setLines (framesApart_setCtx_move hs hf' ?_ ?_ ?_ ?_ ?_) c _ _ ?_ ?_
  · simp [Frame.beforeReadout, hp]
  · simp
  · simp [hp]
  · simp
  · exact asked
  · exact .inl
  · simp

/-- A context goes from EXPOSING to READOUT with the lines off and the other context not in READOUT (R44). -/
theorem enterReadout_keeps (c : CtxId) (s : State) (h : s.inPhase c .exposing = true)
    (expose : s.seq.expose = false) (strobe : s.seq.strobe = false) (readout : s.inPhase (other c) .readout = false) :
    Keeps s (s.enterReadout c) := by
  refine .of_apart (fun hs => ?_) (enterReadout_frame c s)
  obtain ⟨f, hf, hp⟩ := ctx_of_inPhase h
  have asked : f.returnAsked = false := returnAsked_false hs hf (by simp [hp])
  unfold State.enterReadout
  rw [updCtx_of_ctx hf]
  rw [framesApart_iff] at hs ⊢
  refine ⟨ContextsApart.setRecv (hs.1.setCtx c _ ?_ ?_ ?_ ?_ ?_ ?_) _, ⟨(forall_ctx c _).mpr ⟨?_, ?_⟩, ?_⟩⟩
  · exact hs.1.live c (by simp [hf])
  · simp [Frame.beforeReadout]
  · exact fun _ => readout
  · simp [expose]
  · simp [strobe]
  · simp [asked]
  · exact iff_of_true rfl (by exact setCtx_inPhase_same s c (some _) .readout)
  · refine iff_of_false (fun k => other_ne c (Option.some.inj k).symm) (fun k => ?_)
    have : s.inPhase (other c) .readout = true := (setCtx_inPhase_other s c (some _) .readout).symm.trans k
    simp [readout] at this
  · exact iff_of_false nofun nofun

@[simp] theorem releaseLines_inPhase (s : State) (c : CtxId) (p : Phase) :
    s.releaseLines.inPhase c p = s.inPhase c p := by simp [State.inPhase]

@[simp] theorem updCtx_expose (s : State) (c : CtxId) (g : Frame → Frame) : (s.updCtx c g).seq.expose = s.seq.expose := by
  unfold State.updCtx; split <;> simp

@[simp] theorem updCtx_strobe (s : State) (c : CtxId) (g : Frame → Frame) : (s.updCtx c g).seq.strobe = s.seq.strobe := by
  unfold State.updCtx; split <;> simp

theorem exposureEnd_keeps (c : CtxId) (s : State) (h : s.inPhase c .exposing = true)
    (readout : s.inPhase (other c) .readout = false) : Keeps s (s.exposureEnd c) := by
  unfold State.exposureEnd
  refine (releaseLines_keeps s).trans ((updCtx_keeps c (Frame.recordActual s.now) _).trans
    (enterReadout_keeps c _ ?_ ?_ ?_ ?_))
  · exact (updCtx_inPhase_same _ c _ _).trans (by simpa using h)
  · simp [State.releaseLines]
  · simp [State.releaseLines]
  · simpa using readout

theorem exposureWouldEnd_keeps (c : CtxId) (s : State) (h : s.inPhase c .exposing = true) :
    Keeps s (s.exposureWouldEnd c) :=
  .ite (fun _ => updCtx_keeps c _ s) fun hr => exposureEnd_keeps c s h (by simpa using hr)

/-! ## GAP and WAIT_START (R31 to R33) -/

theorem updHead_liveRequest (g : Entry → Entry) (s : State) (form : ∀ e, (g e).form = e.form)
    (mark : ∀ e, (g e).mark = e.mark) : (s.updHead g).liveRequest = s.liveRequest := by
  unfold State.updHead
  split
  · rfl
  · rename_i e rest h
    simp [State.liveRequest, h, mark, Entry.request, form]

theorem setQueue_frame (q : List Entry) (s : State) :
    unchangedBut [.queue] s { s with sched := { s.sched with queue := q } } := by
  intro p hp
  cases p <;> simp [Part.same] at hp ⊢

/-- The queue changes and a live request stays at its head. -/
theorem queue_keeps {s t : State} (queue : unchangedBut [.queue] s t)
    (live : s.liveRequest.isSome = true → t.liveRequest.isSome = true) : Keeps s t := by
  have lines := queue.get .lines
  have receiver := queue.get .receiver
  simp only [Part.same, Prod.mk.injEq] at lines receiver
  have ctx : ∀ c, t.ctx c = s.ctx c := fun c => ctx_of_contexts queue c
  have phase : ∀ c p, t.inPhase c p = s.inPhase c p := fun c p => by simp only [State.inPhase, ctx]
  have before : ∀ c, t.beforeReadout c = s.beforeReadout c := fun c => by simp only [State.beforeReadout, ctx]
  refine .of_apart (fun hs => ?_) queue
  rw [framesApart_iff] at hs ⊢
  obtain ⟨apart, recv⟩ := hs
  refine ⟨⟨?_, ?_, ?_, ?_, ?_, ?_⟩, ⟨?_, ?_⟩⟩
  · simpa only [before] using apart.before
  · simpa only [phase] using apart.readout
  · exact fun c hc => live (apart.live c (by rwa [ctx] at hc))
  · simpa only [phase, lines] using apart.expose
  · simpa only [phase, lines] using apart.strobe
  · simpa only [ctx] using apart.returns
  · simpa only [phase, receiver] using recv.served
  · simpa only [receiver] using recv.idle

/-- The head entry's counts change. -/
theorem updHead_keeps (g : Entry → Entry) (s : State) (form : ∀ e, (g e).form = e.form := by intros; rfl)
    (mark : ∀ e, (g e).mark = e.mark := by intros; rfl) : Keeps s (s.updHead g) :=
  queue_keeps (updHead_frame g s) (by rw [updHead_liveRequest g s form mark]; exact id)

@[simp] theorem updHead_ctx (g : Entry → Entry) (s : State) (c : CtxId) : (s.updHead g).ctx c = s.ctx c := by
  unfold State.updHead; split <;> rfl

/-- What a frame takes as its context enters WAIT_START (R33). -/
def Frame.toWaitStart (generation : Word) (pending : Nat) (f : Frame) : Frame :=
  { f with phase := .waitStart, generation := some generation, missed := satAdd f.missed pending }

/-- Entry to WAIT_START without what follows it there: the frame's fields, and the pending missed count moved (R33, R38). -/
def State.beginWaitStart (c : CtxId) (s : State) : State :=
  let t := (s.updCtx c (Frame.toWaitStart s.sensor.generation s.seq.missed)).updHead fun e =>
    { e with missed := satAdd e.missed s.seq.missed }
  { t with seq := { t.seq with missed := 0 } }

theorem enterWaitStart_eq (r : CaptureRequest) (c : CtxId) (s : State) :
    s.enterWaitStart r c =
      (let t := s.beginWaitStart c
      if r.source = .software then t.startCondition r c
      else if t.seq.latch = true then
        (State.updCtx c (fun f => { f with flags := { f.flags with latchedStart := true } })
          { t with seq := { t.seq with latch := false } }).startCondition r c
      else if r.timeout ≠ 0 then t.updCtx c fun f => { f with trigTimer := some (Timer.start t.now (millis r.timeout)) }
      else t) := rfl

theorem beginWaitStart_keeps (c : CtxId) (s : State) (h : s.inPhase c .gap = true) : Keeps s (s.beginWaitStart c) := by
  obtain ⟨f, hf, hp⟩ := ctx_of_inPhase h
  refine .trans (.of_apart (fun hs => ?_) (updCtx_frame c (Frame.toWaitStart s.sensor.generation s.seq.missed) s))
    ((updHead_keeps (fun e => { e with missed := satAdd e.missed s.seq.missed }) _).trans .of_view)
  rw [updCtx_of_ctx hf]
  have asked : f.returnAsked = false := returnAsked_false hs hf (by simp [hp])
  refine framesApart_setCtx_move hs hf ?_ ?_ ?_ ?_ asked
  · simp [Frame.beforeReadout, hp]
  · simp [Frame.toWaitStart]
  · simp [hp]
  · simp [hp]

theorem beginWaitStart_inPhase (c : CtxId) (s : State) (h : s.inPhase c .gap = true) :
    (s.beginWaitStart c).inPhase c .waitStart = true := by
  obtain ⟨f, hf, -⟩ := ctx_of_inPhase h
  have : (s.beginWaitStart c).ctx c =
      ((s.updCtx c (Frame.toWaitStart s.sensor.generation s.seq.missed)).updHead fun e =>
        { e with missed := satAdd e.missed s.seq.missed }).ctx c := by cases c <;> rfl
  simp [State.inPhase, this, hf, Frame.toWaitStart]

theorem enterWaitStart_keeps (r : CaptureRequest) (c : CtxId) (s : State) (h : s.inPhase c .gap = true) :
    Keeps s (s.enterWaitStart r c) := by
  rw [enterWaitStart_eq]
  refine (beginWaitStart_keeps c s h).trans ?_
  have hw := beginWaitStart_inPhase c s h
  generalize s.beginWaitStart c = t at hw ⊢
  refine .ite (fun _ => startCondition_keeps r c t hw) fun _ => .ite (fun _ => ?_) fun _ => .ite (fun _ => ?_) fun _ => .refl t
  · have latched : State.inPhase { t with seq := { t.seq with latch := false } } c .waitStart = true := by
      cases c <;> exact hw
    refine (Keeps.of_view (t := { t with seq := { t.seq with latch := false } })).trans
      ((updCtx_keeps c _ _).trans (startCondition_keeps r c _ ?_))
    exact (updCtx_inPhase_same _ c _ _).trans latched
  · exact updCtx_keeps c _ t

theorem gapAdvance_keeps (c : CtxId) (s : State) : Keeps s (s.gapAdvance c) := by
  unfold State.gapAdvance
  split
  · exact .refl s
  · refine .ite (fun hg => ?_) fun _ => .refl s
    obtain ⟨f, hf, hp⟩ := ctx_of_inPhase hg
    split
    · exact closeFrame_keeps_of_phase hf _ (by simp [hp]) (by simp [hp]) (by simp [hp])
    · exact .refl s
    · exact .refl s
    · exact .ite (fun _ => enterWaitStart_keeps _ c s hg) fun _ => .refl s

theorem gapEvaluate_keeps (c : CtxId) (s : State) : Keeps s (s.gapEvaluate c) :=
  (gapAdvance_keeps c s).trans (.ite (fun _ => .of_view) fun _ => .refl _)

theorem gapEvaluateAll_keeps (s : State) : Keeps s s.gapEvaluateAll :=
  (gapEvaluate_keeps .c0 s).trans (gapEvaluate_keeps .c1 _)

/-! ## Readout ends (R45) -/

/-- A readout ends as the receiver, now idle, has left it: its context closes, and with it no context is in READOUT. -/
theorem readoutEnd_framesApart {s : State} (hs : ContextsApart s) (c : CtxId) (state : s.recv.state = .idle)
    (served : s.recv.served = none) (readout : s.inPhase (other c) .readout = false) : (s.readoutEnd c).framesApart := by
  have idle : s.inPhase c .readout = false → s.framesApart := fun h =>
    (framesApart_iff s).mpr ⟨hs, .of_idle state served ((forall_ctx c _).mpr ⟨h, readout⟩)⟩
  unfold State.readoutEnd
  split
  · rename_i hf
    exact idle (by simp [State.inPhase, hf])
  · rename_i f hf
    split
    · rename_i hp
      have closed : (s.closeFrame c f.readoutOutcome).framesApart := by
        refine (framesApart_iff _).mpr ⟨closeFrame_contextsApart hs c _ ⟨?_, ?_⟩,
          .of_idle ?_ ?_ ((forall_ctx c _).mpr ⟨?_, ?_⟩)⟩
        · simp [inPhase_of_ctx hf, hp]
        · simp [inPhase_of_ctx hf, hp]
        · rw [closeFrame_of_ctx hf]; simpa [State.noteClose] using state
        · rw [closeFrame_of_ctx hf]; simpa [State.noteClose] using served
        · simp [State.inPhase, hf, Frame.close]
        · simpa [State.inPhase] using readout
      have closing : (s.closeFrame c f.readoutOutcome).inPhase c .readout = false := by
        simp [State.inPhase, hf, Frame.close]
      generalize s.closeFrame c f.readoutOutcome = u at closed closing ⊢
      dsimp only
      split
      · rename_i hd
        refine (exposureEnd_keeps (other c) u ?_ (by simpa using closing)).1 closed
        obtain ⟨g, hg, hx⟩ := (Option.any_eq_true _ _).mp hd
        simp only [Bool.and_eq_true, decide_eq_true_eq] at hx
        simp [inPhase_of_ctx hg, hx.1]
      · exact (gapEvaluate_keeps _ u).1 closed
    · rename_i hp
      exact idle (by simp [inPhase_of_ctx hf, hp])

theorem readoutEnd_stopForm (c : CtxId) (s : State) (hs : s.stopForm) : (s.readoutEnd c).stopForm := by
  unfold State.readoutEnd
  split
  · exact hs
  · split
    · have closed := closeFrame_stopForm c (Frame.readoutOutcome ‹_›) s hs
      dsimp only
      split
      · exact stopForm_of_view (stopView_of_unchanged (exposureEnd_frame _ _)) closed
      · exact (gapEvaluate_keeps _ _).2 closed
    · exact hs

/-! ## Start and end events (R34 to R37, R41) -/

theorem startEvent_keeps (r : CaptureRequest) (s : State) : Keeps s (s.startEvent r) :=
  .ite (startCondition_keeps r .c0 s) fun _ => .ite (startCondition_keeps r .c1 s) fun _ =>
    .of_unchanged (earlyTrigger_frame r s)

theorem endEventAt_keeps (c : CtxId) (s : State) : Keeps s (s.endEventAt c) := by
  unfold State.endEventAt
  split
  · exact .refl s
  · rename_i f hf
    split
    · exact updCtx_keeps c _ s
    · rename_i hp
      exact .ite (fun _ => exposureWouldEnd_keeps c s (by simp [inPhase_of_ctx hf, hp])) fun _ => .refl s
    · exact .refl s

theorem endEvent_keeps (s : State) : Keeps s s.endEvent :=
  .ite (fun _ => endEventAt_keeps .c0 s) fun _ => endEventAt_keeps .c1 s

/-! ## Stops (R22, R23, R48, R49) -/

theorem gracefulAt_keeps (c : CtxId) (s : State) : Keeps s (s.gracefulAt c) := by
  refine .ite (fun h => ?_) fun _ => .refl s
  simp only [Bool.or_eq_true] at h
  obtain (h | h) | h := h <;> obtain ⟨f, hf, hp⟩ := ctx_of_inPhase h <;>
    exact closeFrame_keeps_of_phase hf _ (by simp [hp]) (by simp [hp]) (by simp [hp])

/-- A context in LEAD closes with STROBE off. -/
theorem closeLead_keeps {s : State} {c : CtxId} {f : Frame} (hf : s.ctx c = some f) (hp : f.phase = .lead)
    (o : FrameOutcome) : Keeps s (State.closeFrame c o { s with seq := { s.seq with strobe := false } }) := by
  have hf' : State.ctx { s with seq := { s.seq with strobe := false } } c = some f := by cases c <;> exact hf
  exact (dropStrobe_keeps s).trans (closeFrame_keeps c o _ (by simp [inPhase_of_ctx hf', hp])
    ⟨by simp [inPhase_of_ctx hf', hp], fun _ => rfl⟩)

theorem abortAt_keeps (c : CtxId) (s : State) : Keeps s (s.abortAt c) := by
  unfold State.abortAt
  split
  · exact .refl s
  · rename_i f hf
    have close : f.phase ≠ .readout → f.phase ≠ .exposing → f.phase ≠ .lead → Keeps s (s.closeFrame c .aborted) :=
      closeFrame_keeps_of_phase hf .aborted
    split
    case h_1 hp => exact close (by simp [hp]) (by simp [hp]) (by simp [hp])
    case h_2 hp => exact close (by simp [hp]) (by simp [hp]) (by simp [hp])
    case h_3 hp => exact close (by simp [hp]) (by simp [hp]) (by simp [hp])
    case h_4 hp => exact closeLead_keeps hf hp .aborted
    case h_5 hp =>
      refine (releaseLines_keeps s).trans (.trans (updCtx_keeps c (fun f => { f.recordActual s.now with
          expTimer := none, outcome := some (f.outcome.getD .aborted), flags := { f.flags with discard := true } }) _) ?_)
      refine .ite (fun _ => updCtx_keeps c _ _) fun hr => enterReadout_keeps c _ ?_ ?_ ?_ (by simpa using hr)
      · exact (updCtx_inPhase_same _ c _ _).trans (by simp [inPhase_of_ctx hf, hp])
      · simp [State.releaseLines]
      · simp [State.releaseLines]
    case h_6 => exact updCtx_keeps c _ s
    case h_7 => exact .refl s

/-- Table 11: with a mode applied there is an end cause. -/
theorem applyEndCause_ne_none (m : StopMode) (k : StopKind) (cause : Option EndCause) (h : m ≠ .none → cause ≠ none) :
    applyEndCause m k cause ≠ none := by
  cases m with
  | none => cases k <;> simp [applyEndCause]
  | graceful =>
    have := h (by decide)
    cases k
    · exact this
    · simp only [applyEndCause]; split <;> simp_all
  | abort => simpa [applyEndCause] using h (by decide)

theorem applyStop_keeps (k : StopKind) (s : State) : Keeps s (s.applyStop k) := by
  unfold State.applyStop
  refine .trans (t := { s with sched := { s.sched with
    stopMode := s.sched.stopMode.apply k, endCause := applyEndCause s.sched.stopMode k s.sched.endCause } }) ?_ ?_
  · exact ⟨framesApart_of_view rfl, fun hs _ => applyEndCause_ne_none _ k _ hs⟩
  · refine .ite (fun _ => .refl _) fun _ => ?_
    cases k
    · exact (gracefulAt_keeps .c0 _).trans (gracefulAt_keeps .c1 _)
    · exact (abortAt_keeps .c0 _).trans (abortAt_keeps .c1 _)

/-- The entries behind the head change. -/
theorem setQueueTail_keeps {s : State} {e : Entry} {rest : List Entry} (h : s.sched.queue = e :: rest)
    (rest' : List Entry) : Keeps s { s with sched := { s.sched with queue := e :: rest' } } := by
  refine queue_keeps (setQueue_frame _ s) ?_
  simp [State.liveRequest, h]

theorem stopAllRequests_keeps (k : StopKind) (s : State) : Keeps s (s.stopAllRequests k) := by
  unfold State.stopAllRequests
  refine (Keeps.of_unchanged (recordMark_frame s)).trans ?_
  dsimp only
  split
  · exact .refl _
  · rename_i e rest h
    exact (setQueueTail_keeps (s := s.recordMark) h _).trans (.ite (fun _ => applyStop_keeps k _) fun _ => .refl _)

theorem stopByTag_keeps {tag : Word} {k : StopKind} {s t : State} (h : s.stopByTag tag k = some t) : Keeps s t := by
  unfold State.stopByTag at h
  split at h
  · cases h
  · rename_i e rest hq
    split at h
    · cases h; exact applyStop_keeps k s
    · obtain ⟨rest', -, rfl⟩ := Option.map_eq_some_iff.mp h
      exact setQueueTail_keeps hq rest'

end Sys2Proof.Machine
end

section
/-! SUPPORT for O58. The operations of the Sensor Link, of the part states and of the grants keep both invariants. -/

set_option Elab.async false

namespace Sys2Proof.Machine

open Sys2Proof

/-! ## The Sensor Link (R110, R116 to R118, R125) -/

theorem becomeReady_keeps (s : State) : Keeps s s.becomeReady :=
  (Keeps.of_view (t := { s with sensor := { s.sensor with power := .ready } })).trans ((gapEvaluateAll_keeps _).trans
    ((Keeps.of_unchanged (readyForRecord_frame _)).trans (.of_unchanged (forgetReplay_frame _))))

theorem replayNext_keeps (s : State) : Keeps s s.replayNext := by
  unfold State.replayNext
  split
  · exact .of_view
  · exact (Keeps.of_unchanged (freePort_frame s)).trans (becomeReady_keeps _)

theorem grantReplay_keeps (s : State) : Keeps s s.grantReplay :=
  .ite (fun _ => Keeps.trans .of_view (replayNext_keeps _)) fun _ => .refl s

theorem grantFlush_keeps (s : State) : Keeps s s.grantFlush :=
  .ite (fun _ => Keeps.trans .of_view (.ite (fun _ => .of_unchanged (beginFlush_frame _)) fun _ =>
    (gapAdvance_keeps .c0 _).trans ((gapAdvance_keeps .c1 _).trans (.of_unchanged (checkFlushRecord_frame _)))))
    fun _ => .refl s

theorem arbitrate_keeps (s : State) : Keeps s s.arbitrate :=
  (grantReplay_keeps s).trans ((grantFlush_keeps _).trans (.of_unchanged (grantEngine_frame _)))

theorem follow_keeps (s : State) : Keeps s s.follow :=
  (Keeps.of_unchanged (checkFlushRecord_frame s)).trans
    ((arbitrate_keeps _).trans (.of_unchanged (tidyInterval_frame _)))

theorem replayWritten_keeps (ok : Bool) (a v : Half) (s : State) : Keeps s (s.replayWritten ok a v) := by
  unfold State.replayWritten
  refine .trans (.ite (fun _ => ?_) fun _ => ?_) (replayNext_keeps _) <;> exact .of_view

theorem endFlush_keeps (s : State) : Keeps s s.endFlush :=
  (Keeps.of_unchanged (closeFlush_frame s)).trans
    ((Keeps.of_unchanged (freePort_frame _)).trans (gapEvaluateAll_keeps _))

theorem entryWritten_keeps (ok : Bool) (a v : Half) (s : State) : Keeps s (s.entryWritten ok a v) := by
  unfold State.entryWritten
  refine .trans (t := if ok then s.recordWrite a v else s)
    (.ite (fun _ => .of_unchanged (recordWrite_frame a v s)) fun _ => .refl s) ?_
  generalize (if ok then s.recordWrite a v else s) = s
  dsimp only
  split
  · exact endFlush_keeps s
  · rename_i e rest _
    refine .ite (fun _ => ?_) fun _ => endFlush_keeps s
    exact Keeps.trans .of_view ((Keeps.of_unchanged
      (handOver_frame _ { s with sensor := { s.sensor with staged := rest } })).trans
      (.ite (fun _ => endFlush_keeps _) fun _ => .of_unchanged (writeFront_frame _)))

theorem transactionEnds_keeps (ok : Bool) (v : Half) (s : State) : Keeps s (s.transactionEnds ok v) := by
  unfold State.transactionEnds
  split
  · exact .refl s
  · split
    · exact (replayWritten_keeps ok _ _ s).trans (follow_keeps _)
    · exact (entryWritten_keeps ok _ _ s).trans (follow_keeps _)
    · exact (Keeps.of_unchanged (recordTransacted_frame ok _ v s)).trans (follow_keeps _)
    · exact (Keeps.of_unchanged (clearedTransacted_frame ok _ s)).trans (follow_keeps _)
    · exact (Keeps.of_unchanged (leftFlushWritten_frame ok _ _ s)).trans (follow_keeps _)
    · exact (Keeps.of_unchanged (freePort_frame s)).trans (follow_keeps _)

/-! ## Removal of power (R51, R88, R126) -/

/-- A power-off notice drops the lines that stand for a context before it closes (R51, Table 19). The receiver is told later,
so that only the clauses without it go on here. -/
theorem powerOffAt_contextsApart {s : State} (hs : ContextsApart s) (c : CtxId) : ContextsApart (s.powerOffAt c) := by
  unfold State.powerOffAt
  split
  · exact hs
  · rename_i f hf
    have close : ∀ o, f.phase ≠ .exposing → f.phase ≠ .lead → ContextsApart (s.closeFrame c o) := fun o hx hl =>
      closeFrame_contextsApart hs c o ⟨by simp [inPhase_of_ctx hf, hx], by simp [inPhase_of_ctx hf, hl]⟩
    split
    case h_1 => exact hs
    case h_2 => exact hs
    case h_3 hp => exact close _ (by simp [hp]) (by simp [hp])
    case h_4 hp => exact close _ (by simp [hp]) (by simp [hp])
    case h_5 hp =>
      have hf' : State.ctx { s with seq := { s.seq with strobe := false } } c = some f := by cases c <;> exact hf
      exact closeFrame_contextsApart (hs.setLines s.seq.expose false hs.expose nofun) c _
        ⟨by simp [inPhase_of_ctx hf', hp], fun _ => rfl⟩
    case h_6 hp =>
      have off : ContextsApart s.releaseLines := hs.setLines false false nofun nofun
      exact closeFrame_contextsApart (off.updCtx c (Frame.recordActual s.now)) c _
        ⟨fun _ => by simp [State.releaseLines], fun _ => by simp [State.releaseLines]⟩
    case h_7 hp => exact close _ (by simp [hp]) (by simp [hp])

theorem powerOffAt_stopForm (c : CtxId) (s : State) (hs : s.stopForm) : (s.powerOffAt c).stopForm := by
  unfold State.powerOffAt
  split
  · exact hs
  · split
    case h_1 => exact hs
    case h_2 => exact hs
    case h_6 =>
      exact closeFrame_stopForm c _ _ (((releaseLines_keeps s).trans (updCtx_keeps c (Frame.recordActual s.now) _)).2 hs)
    all_goals exact closeFrame_stopForm c _ _ hs

theorem powerOffAt_ctx_other (c : CtxId) (s : State) : (s.powerOffAt c).ctx (other c) = s.ctx (other c) := by
  have strobe : ∀ d, State.ctx { s with seq := { s.seq with strobe := false } } d = s.ctx d := fun d => by cases d <;> rfl
  unfold State.powerOffAt
  split
  · rfl
  · split <;> simp [strobe]

theorem powerOffAt_readout (c : CtxId) (s : State) : (s.powerOffAt c).inPhase c .readout = false := by
  unfold State.powerOffAt
  split
  · rename_i hf; simp [State.inPhase, hf]
  · rename_i f hf
    split
    case h_1 hp => simp [inPhase_of_ctx hf, hp]
    case h_2 hp => simp [inPhase_of_ctx hf, hp]
    all_goals simp [State.inPhase, Option.any_map, Function.comp_def, Frame.close]

/-- The power-off notice at both contexts, at this one first (R51; log entry 7). -/
def State.powerOffFrom (c : CtxId) (s : State) : State := (s.powerOffAt c).powerOffAt (other c)

theorem powerOffNotice_eq (s : State) :
    ∃ c, s.powerOffNotice = State.receiverOff { s.powerOffFrom c with free := s.free + 1 } := by
  unfold State.powerOffNotice
  dsimp only
  split
  · exact ⟨.c1, rfl⟩
  · exact ⟨.c0, rfl⟩

/-- After the notice at both contexts, in either order, none is in READOUT. -/
theorem powerOffFrom_contextsApart {s : State} (hs : ContextsApart s) (c : CtxId) :
    ContextsApart (s.powerOffFrom c) ∧ ∀ d, (s.powerOffFrom c).inPhase d .readout = false := by
  refine ⟨powerOffAt_contextsApart (powerOffAt_contextsApart hs c) _, (forall_ctx c _).mpr ⟨?_, powerOffAt_readout _ _⟩⟩
  have ctx := powerOffAt_ctx_other (other c) (s.powerOffAt c)
  rw [other_other] at ctx
  rw [State.inPhase, State.powerOffFrom, ctx]
  exact powerOffAt_readout c s

theorem powerOffFrom_recv (c : CtxId) (s : State) :
    (s.powerOffFrom c).recv.state = s.recv.state ∧ (s.powerOffFrom c).recv.served = s.recv.served := by
  have h := ((powerOffAt_frame c s).trans (powerOffAt_frame (other c) _)).get .receiver
  simp only [Part.same, Prod.mk.injEq] at h
  exact ⟨h.1, h.2.1⟩

theorem receiverOff_framesApart {s : State} (hs : ContextsApart s) (idle : s.recv.state = .idle ↔ s.recv.served = none)
    (readout : ∀ c, s.inPhase c .readout = false) : s.receiverOff.framesApart := by
  rw [framesApart_iff]
  unfold State.receiverOff
  split
  · rename_i h
    exact ⟨hs, .of_idle h (idle.mp h) readout⟩
  · exact ⟨hs.setRecv _, .of_idle rfl rfl readout⟩

theorem powerOffNotice_keeps (s : State) : Keeps s s.powerOffNotice := by
  obtain ⟨c, hc⟩ := powerOffNotice_eq s
  rw [hc]
  constructor
  · intro hs
    obtain ⟨apart, follows⟩ := (framesApart_iff s).mp hs
    obtain ⟨apart', readout⟩ := powerOffFrom_contextsApart apart c
    obtain ⟨state, served⟩ := powerOffFrom_recv c s
    exact receiverOff_framesApart (apart'.of_view rfl) (by show _ ↔ _; rw [state, served]; exact follows.idle) readout
  · intro hs
    refine stopForm_of_view (stopView_of_unchanged (receiverOff_frame _)) ?_
    exact powerOffAt_stopForm _ _ (powerOffAt_stopForm _ _ hs)

theorem removePower_keeps (s : State) : Keeps s s.removePower :=
  (powerOffNotice_keeps s).trans (.trans .of_view ((Keeps.of_unchanged (cutPort_frame
    { s.powerOffNotice with sensor := { s.powerOffNotice.sensor with settle := none } })).trans
      ((Keeps.of_unchanged (forgetReplay_frame _)).trans .of_view)))

/-! ## The active request (R11, R16) -/

theorem becomeActive_stopMode (s : State) : s.becomeActive.sched.stopMode = .none := by
  unfold State.becomeActive
  dsimp only
  split
  · rfl
  · split
    · rfl
    · split
      · exact congrArg Prod.fst ((firstTick_frame _ _).get .stop)
      · rfl

theorem becomeActive_keeps (s : State) : Keeps s s.becomeActive :=
  ⟨framesApart_of_view (framesView_of_unchanged (becomeActive_frame s)), fun _ h => absurd (becomeActive_stopMode s) h⟩

/-- With both contexts FREE, the lines off and the receiver idle, the frames are apart whatever the queue holds. -/
theorem framesApart_of_free {s : State} (ctx : ∀ c, s.ctx c = none) (expose : s.seq.expose = false)
    (strobe : s.seq.strobe = false) (state : s.recv.state = .idle) (served : s.recv.served = none) : s.framesApart := by
  have phase : ∀ c p, s.inPhase c p = false := fun c p => by simp [State.inPhase, ctx]
  refine (framesApart_iff s).mpr ⟨⟨?_, ?_, ?_, ?_, ?_, ?_⟩, .of_idle state served fun c => phase c _⟩
  · simp [State.beforeReadout, ctx]
  · simp [phase]
  · simp [ctx]
  · simp [expose]
  · simp [strobe]
  · simp [ctx]

/-- With both contexts FREE the queue may change at will: no line stands and the receiver is idle. -/
theorem framesApart_of_contextsFree {s t : State} (hs : s.framesApart) (free : ∀ c, s.ctx c = none)
    (h : unchangedBut [.queue] s t) : t.framesApart := by
  obtain ⟨apart, recv⟩ := (framesApart_iff s).mp hs
  have lines := h.get .lines
  have receiver := h.get .receiver
  simp only [Part.same, Prod.mk.injEq] at lines receiver
  have served : s.recv.served = none := by
    by_contra hr
    obtain ⟨c, hc⟩ := Option.ne_none_iff_exists'.mp hr
    simpa [State.inPhase, free] using (recv.served c).mp hc
  refine framesApart_of_free (fun c => (ctx_of_contexts h c).trans (free c)) ?_ ?_ ?_ ?_
  · rw [lines.1]
    exact eq_false_of_ne_true fun he => by simpa [State.inPhase, free] using apart.expose he
  · rw [lines.2]
    exact eq_false_of_ne_true fun he => by simpa [State.inPhase, free] using apart.strobe he
  · exact receiver.1.trans (recv.idle.mpr served)
  · exact receiver.2.1.trans served

/-- An entry that joins the queue's tail leaves a live head. -/
theorem append_keeps (s : State) (e : Entry) (credit : CreditState) :
    Keeps s { s with sched := { s.sched with queue := s.sched.queue ++ [e], credit := credit } } := by
  refine .trans (t := { s with sched := { s.sched with queue := s.sched.queue ++ [e] } })
    (queue_keeps (setQueue_frame _ s) ?_) .of_view
  intro h
  cases hq : s.sched.queue with
  | nil => simp [State.liveRequest, hq] at h
  | cons e rest => simpa [State.liveRequest, hq] using h

/-- A request that ends has no frame in a context: none was begun, or each has been posted (R16, R29). -/
theorem contextsFree_of_requestEnds {s : State} (hs : s.framesApart) (h : s.requestEnds = true) (c : CtxId) :
    s.ctx c = none := by
  by_contra hc
  have live := ((framesApart_iff s).mp hs).1.live c (Option.isSome_iff_ne_none.mpr hc)
  unfold State.requestEnds at h
  cases hq : s.sched.queue with
  | nil => simp [hq] at h
  | cons e rest =>
    by_cases hm : e.mark = .none
    · simp only [hq] at h
      cases hform : e.form with
      | rejected d => simp [State.liveRequest, hq, hm, Entry.request, hform] at live
      | flushedAtFetch => simp [State.liveRequest, hq, hm, Entry.request, hform] at live
      | valid r =>
        simp only [hform, hm, ne_eq, not_true_eq_false, decide_false, Bool.false_or, Bool.and_eq_true,
          State.contextsFree, Option.isNone_iff_eq_none] at h
        cases c
        · exact hc h.1.1
        · exact hc h.1.2
    · simp [State.liveRequest, hq, hm] at live

/-! ## The part states (R174 to R180) -/

theorem enterHalted_keeps (cause : HaltCause) (d : Detail) (s : State) : Keeps s (s.enterHalted cause d) :=
  ⟨fun _ => framesApart_of_free (fun c => by cases c <;> rfl) rfl rfl rfl rfl, fun _ h => absurd rfl h⟩

theorem enterStarting_keeps (s : State) : Keeps s s.enterStarting := by
  unfold State.enterStarting
  refine .trans (t := if s.cpl.unsignalled ≠ 0 then s.raise Causes.onlyCompletion else s)
    (.ite (fun _ => .of_unchanged (raise_frame _ s)) fun _ => .refl s) ?_
  generalize (if s.cpl.unsignalled ≠ 0 then s.raise Causes.onlyCompletion else s) = u
  refine .ite (fun _ => ?_) fun _ => ?_
  · exact ⟨fun _ => framesApart_of_free (fun c => by cases c <;> rfl) rfl rfl rfl rfl, fun _ h => absurd rfl h⟩
  · exact ⟨fun _ => framesApart_of_free (fun c => by cases c <;> rfl) rfl rfl rfl rfl, fun _ h => absurd rfl h⟩

theorem partReset_keeps (keepConfig : Bool) (pin : Level) (s : State) : Keeps s (s.partReset keepConfig pin) :=
  ⟨fun _ => framesApart_of_free (fun c => by cases c <;> rfl) rfl rfl rfl rfl, fun _ h => absurd rfl h⟩

theorem readFails_keeps (r : HostRead) (s : State) : Keeps s (s.readFails r) :=
  .ite (fun _ => enterHalted_keeps _ _ s) fun _ => .refl s

theorem enterDraining_keeps (s : State) : Keeps s s.enterDraining :=
  (Keeps.of_view (t := { s with link := { s.link with part := .draining } })).trans ((stopAllRequests_keeps .abort _).trans
    ((Keeps.of_unchanged (discardWaiting_frame _)).trans ((Keeps.of_unchanged (engineDrain_frame _)).trans
      ((Keeps.of_unchanged (captureTest_frame _)).trans (follow_keeps _)))))

/-- The three fetching blocks test their conditions. -/
theorem fetchTests_keeps (s : State) : Keeps s s.engineTest.captureTest.bufferTest :=
  (Keeps.of_unchanged (engineTest_frame s)).trans
    ((Keeps.of_unchanged (captureTest_frame _)).trans (.of_unchanged (bufferTest_frame _)))

theorem takeSetup_keeps (u : Setup) (s : State) : Keeps s (s.takeSetup u) := by
  unfold State.takeSetup
  dsimp only
  refine .trans .of_view (.trans (.ite (fun _ => .of_unchanged (raise_frame _ _)) fun _ => .refl _)
    (.trans (.of_unchanged (writeProgress_frame _)) (.ite (fun _ => ?_) fun _ => enterDraining_keeps _)))
  exact Keeps.trans .of_view (fetchTests_keeps _)

/-! ## Grants (R95 to R97, R165) -/

/-- What a context and the cache hold after the serving of its assignments. -/
def State.storeServed (c : CtxId) (r : List Assignment × List CacheEntry × Served) (s : State) : State :=
  State.updCtx c (fun f => { f with assignments := r.1 }) { s with bufs := { s.bufs with cache := r.2.1 } }

/-- How a context goes on after the serving of its assignments (R95 to R97). -/
def State.afterServe (c : CtxId) (r : Served) (s : State) : State :=
  match r with
  | .allServed => (s.updCtx c fun f => { f with phase := .gap }).gapEvaluate c
  | .cacheEmpty => if s.request.any CaptureRequest.skip then s.closeFrame c .skipped else s
  | .returnFront => s.updCtx c fun f => { f with returnAsked := true }

theorem assignBuffers_of_ctx {s : State} {c : CtxId} {f : Frame} (hf : s.ctx c = some f) :
    s.assignBuffers c =
      State.bufferTest
        ((s.storeServed c (serve f.assignments s.bufs.cache)).afterServe c (serve f.assignments s.bufs.cache).2.2) := by
  unfold State.assignBuffers
  rw [hf]
  rfl

theorem storeServed_keeps (c : CtxId) (r : List Assignment × List CacheEntry × Served) (s : State) :
    Keeps s (s.storeServed c r) :=
  .trans .of_view (updCtx_keeps c _ _)

/-- A frame that may serve its assignments: in RESERVING with its credit and with no return asked for (R95). -/
structure Frame.Serves (f : Frame) : Prop where
  phase : f.phase = .reserving
  credit : f.creditHeld = true
  asked : f.returnAsked = false

theorem afterServe_framesApart {s : State} (hs : s.framesApart) {c : CtxId} {f : Frame} (hf : s.ctx c = some f)
    (serves : f.Serves) (r : Served) : (s.afterServe c r).framesApart := by
  obtain ⟨phase, credit, asked⟩ := serves
  cases r with
  | allServed =>
    refine (gapEvaluate_keeps c _).1 ?_
    rw [updCtx_of_ctx hf]
    refine framesApart_setCtx_move hs hf ?_ ?_ ?_ ?_ asked
    · simp [Frame.beforeReadout, phase]
    · simp
    · simp [phase]
    · simp [phase]
  | cacheEmpty =>
    exact (Keeps.ite (fun _ => closeFrame_keeps_of_phase hf .skipped (by simp [phase]) (by simp [phase]) (by simp [phase]))
      fun _ => .refl s).1 hs
  | returnFront =>
    show (s.updCtx c _).framesApart
    rw [updCtx_of_ctx hf]
    exact framesApart_setCtx_samePhase hs hf rfl fun _ => ⟨phase, credit⟩

theorem afterServe_stopForm {s : State} (hs : s.stopForm) (c : CtxId) (r : Served) : (s.afterServe c r).stopForm := by
  have upd : ∀ g, (s.updCtx c g).stopForm := fun g => stopForm_of_view (stopView_of_unchanged (updCtx_frame c g s)) hs
  cases r with
  | allServed => exact (gapEvaluate_keeps c _).2 (upd _)
  | cacheEmpty =>
    show State.stopForm (ite _ _ _)
    split
    · exact closeFrame_stopForm c _ s hs
    · exact hs
  | returnFront => exact upd _

theorem assignBuffers_framesApart {s : State} (hs : s.framesApart) {c : CtxId} {f : Frame} (hf : s.ctx c = some f)
    (serves : f.Serves) : (s.assignBuffers c).framesApart := by
  rw [assignBuffers_of_ctx hf]
  refine (Keeps.of_unchanged (bufferTest_frame _)).1 ?_
  have hf' : State.ctx { s with bufs := { s.bufs with cache := (serve f.assignments s.bufs.cache).2.1 } } c = some f := by
    cases c <;> exact hf
  exact afterServe_framesApart ((storeServed_keeps c _ s).1 hs) (updCtx_ctx_of_ctx hf' _)
    ⟨serves.phase, serves.credit, serves.asked⟩ _

theorem assignBuffers_stopForm {s : State} (hs : s.stopForm) (c : CtxId) : (s.assignBuffers c).stopForm := by
  cases hf : s.ctx c with
  | none => simpa [State.assignBuffers, hf] using hs
  | some f =>
    rw [assignBuffers_of_ctx hf]
    exact (Keeps.of_unchanged (bufferTest_frame _)).2 (afterServe_stopForm ((storeServed_keeps c _ s).2 hs) c _)

theorem assignBuffers_keeps {s : State} {c : CtxId} {f : Frame} (hf : s.ctx c = some f) (serves : f.Serves) :
    Keeps s (s.assignBuffers c) :=
  ⟨fun hs => assignBuffers_framesApart hs hf serves, fun hs => assignBuffers_stopForm hs c⟩

theorem measure_keeps (c : CtxId) (s : State) : Keeps s (s.measure c) := updCtx_keeps c _ s

theorem measure_serves {s : State} {c : CtxId} {f : Frame} (hf : s.ctx c = some f) (serves : f.Serves) :
    ∃ g, (s.measure c).ctx c = some g ∧ g.Serves :=
  ⟨_, updCtx_ctx_of_ctx hf _, ⟨serves.phase, serves.credit, serves.asked⟩⟩

theorem grantFrame_framesApart {s : State} (hs : s.framesApart) (c : CtxId) : (s.grantFrame c).framesApart := by
  unfold State.grantFrame
  split
  · exact hs
  · rename_i f hf
    have returns := ((framesApart_iff s).mp hs).1.returns c f hf
    split
    · rename_i hr
      have ret := returnFront_frame CacheEntry.refusal (s.updCtx c fun f => { f with returnAsked := false })
      have asked := updCtx_keeps c (fun f => { f with returnAsked := false }) s
        (asked := fun _ h => absurd h Bool.false_ne_true)
      have keeps := asked.trans (.of_unchanged ret)
      exact assignBuffers_framesApart (keeps.1 hs) ((ctx_of_contexts ret c).trans (updCtx_ctx_of_ctx hf _))
        ⟨(returns hr.1).1, hr.2, rfl⟩
    · rename_i hr
      have asked : f.returnAsked = false := eq_false_of_ne_true fun h => hr ⟨h, (returns h).2⟩
      have credit := updCtx_keeps c (fun f => { f with creditHeld := true }) s (credit := fun _ _ => rfl)
      refine (Keeps.ite (fun hp => ?_) fun _ => credit).1 hs
      obtain ⟨g, hg, serves⟩ := measure_serves (updCtx_ctx_of_ctx hf fun f => { f with creditHeld := true })
        ⟨hp, rfl, asked⟩
      exact credit.trans ((measure_keeps c _).trans (assignBuffers_keeps hg serves))

theorem grantFrame_stopForm {s : State} (hs : s.stopForm) (c : CtxId) : (s.grantFrame c).stopForm := by
  have upd : ∀ g, (s.updCtx c g).stopForm := fun g => stopForm_of_view (stopView_of_unchanged (updCtx_frame c g s)) hs
  unfold State.grantFrame
  split
  · exact hs
  · split
    · exact assignBuffers_stopForm ((Keeps.of_unchanged (returnFront_frame _ _)).2 (upd _)) c
    · dsimp only
      split
      · exact assignBuffers_stopForm (stopForm_of_view (stopView_of_unchanged (measure_frame c _)) (upd _)) c
      · exact upd _

theorem grantFrame_keeps (c : CtxId) (s : State) : Keeps s (s.grantFrame c) :=
  ⟨fun hs => grantFrame_framesApart hs c, fun hs => grantFrame_stopForm hs c⟩

theorem grant_keeps (r : Requester) (s : State) : Keeps s (s.grant r) := by
  unfold State.grant
  cases r with
  | capture => exact .trans .of_view (.of_unchanged (captureTest_frame _))
  | sequencer =>
    dsimp only
    split
    · exact .refl s
    · exact grantFrame_keeps _ s
  | buffer => exact .of_unchanged (returnFront_frame _ s)
  | engine => exact .trans .of_view (.of_unchanged (engineTest_frame _))

theorem grantPass_keeps (rs : List Requester) (s : State) : Keeps s (grantPass rs s) := by
  induction rs generalizing s with
  | nil => exact .refl s
  | cons r rs ih =>
    unfold grantPass
    split
    · exact ih s
    · exact .ite (fun _ => (grant_keeps r s).trans (ih _)) fun _ => .refl s

theorem bufferArrived_keeps (s : State) : Keeps s s.bufferArrived := by
  have serves : ∀ c, awaitsBuffer (s.ctx c) = true → Keeps s (s.assignBuffers c) := by
    intro c h
    obtain ⟨f, hf, hp⟩ := (Option.any_eq_true _ _).mp h
    simp only [Bool.and_eq_true, decide_eq_true_eq, Bool.not_eq_true'] at hp
    exact assignBuffers_keeps hf ⟨hp.1.1, hp.1.2, hp.2⟩
  exact .ite (serves .c0) fun _ => .ite (serves .c1) fun _ => .refl s

end Sys2Proof.Machine
end

section
/-! PROOF of O58. Every command keeps both invariants, and so does every step. -/

set_option Elab.async false

namespace Sys2Proof.Machine

open Sys2Proof

/-! ## Commands -/

/-- Whatever next state the outcome holds, both invariants go on to it. -/
def NextKeeps (s : State) (o : Host.Outcome State Fault Refusal) : Prop := ∀ t, o = .next t → Keeps s t

theorem NextKeeps.next {s t : State} (h : Keeps s t) : NextKeeps s (.next t) := by
  rintro u ⟨⟩
  exact h

/-! ## Registers, resets and host reads -/

theorem execEnableSet_keeps (s : State) : NextKeeps s (execEnableSet s) :=
  .next (.trans .of_view (.ite (fun _ => enterStarting_keeps _) fun _ => .refl _))

theorem execEnableClear_keeps (s : State) : NextKeeps s (execEnableClear s) := by
  refine .next (.trans (t := { s with link := { s.link with enable := false } }) .of_view ?_)
  split
  · exact enterDraining_keeps _
  · exact .of_unchanged (enterDisabled_frame _)
  · exact .refl _
  · exact .refl _
  · exact .refl _

theorem execSetupAddrWrite_keeps (half : AddrHalf) (value : Word) (s : State) :
    NextKeeps s (execSetupAddrWrite half value s) := by
  refine .next (.ite (fun _ => ?_) fun _ => .refl s)
  cases half <;> exact .of_view

theorem storeTail_keeps (r : RingId) (value : Word) (s : State) : Keeps s (s.storeTail r value) := by
  cases r <;> exact .of_view

theorem moveMark_keeps (s : State) : Keeps s s.moveMark := by
  unfold State.moveMark
  split
  · exact .refl s
  · exact .ite (fun _ => .of_view) fun _ => .refl s

theorem tailTest_keeps (r : RingId) (s : State) : Keeps s (s.tailTest r) := by
  cases r
  · exact .of_unchanged (engineTest_frame s)
  · exact (moveMark_keeps s).trans (.of_unchanged (captureTest_frame _))
  · exact .of_unchanged (bufferTest_frame s)

theorem execTailWrite_keeps (r : RingId) (value : Word) (s : State) : NextKeeps s (execTailWrite r value s) := by
  have store := storeTail_keeps r value s
  have bad : Keeps s (s.raise Causes.onlyBadIndex) := .of_unchanged (raise_frame _ s)
  have tested := store.trans (tailTest_keeps r _)
  refine .next ?_
  split
  · exact store
  · exact store
  · exact .ite (fun _ => store) fun _ => bad
  · exact .ite (fun _ => tested) fun _ => bad
  · exact .ite (fun _ => tested) fun _ => bad

theorem execCplHeadWrite_keeps (value : Word) (s : State) : NextKeeps s (execCplHeadWrite value s) :=
  .next (.ite (fun _ => .of_view) fun _ => .of_unchanged (raise_frame _ s))

theorem execSetupReadDone_keeps (data : List Byte) (s : State) : NextKeeps s (execSetupReadDone data s) := by
  refine .next ?_
  split
  · exact .refl s
  · split
    · exact enterHalted_keeps _ _ s
    · exact takeSetup_keeps _ s

theorem execHostReadTimeout_keeps (read : HostRead) (s : State) : NextKeeps s (execHostReadTimeout read s) :=
  .next (.ite (fun _ => readFails_keeps read s) fun _ => .refl s)

/-- The end of a drain, before Enable is read, leaves the contexts, the lines, the receiver and the queue (R177). -/
theorem drained_keeps (s : State) :
    Keeps s { s.drainPort.enterDisabled with seq := { s.seq with latch := false, missed := 0 } } := by
  have frames := framesView_of_unchanged (cutPort_frame s)
  simp only [State.framesView, Prod.mk.injEq] at frames
  obtain ⟨-, -, -, -, state, served, queue⟩ := frames
  have stop := stopView_of_unchanged (cutPort_frame s)
  refine .of_view ?_ stop
  show (s.seq.ctx0, s.seq.ctx1, s.seq.expose, s.seq.strobe, s.cutPort.recv.state, s.cutPort.recv.served,
    s.cutPort.sched.queue) = s.framesView
  rw [state, served, queue]
  rfl

theorem execDrainFinish_keeps (s : State) : NextKeeps s (execDrainFinish s) :=
  .next (.ite (fun _ => (drained_keeps s).trans (.ite (fun _ => enterStarting_keeps _) fun _ => .refl _)) fun _ => .refl s)

theorem clearMark_keeps (s : State) : Keeps s s.clearMark := .ite (fun _ => .of_view) fun _ => .refl s

theorem placeEntry_keeps (e : Entry) (s : State) : Keeps s (s.placeEntry e) :=
  (append_keeps s e .none).trans (.trans .of_view (.ite (fun _ => becomeActive_keeps _) fun _ => .refl _))

theorem advanceRing_keeps (r : RingId) (s : State) : Keeps s (s.advanceRing r) := by
  have h := advanceRing_frame r s
  cases r <;> exact .of_unchanged h

theorem execCaptureRecordRead_keeps (data : List Byte) (s : State) : NextKeeps s (execCaptureRecordRead data s) := by
  refine .next ?_
  split
  · exact (advanceRing_keeps .capture s).trans ((clearMark_keeps _).trans ((placeEntry_keeps _ _).trans
      (.of_unchanged (captureTest_frame _))))
  · exact .refl s

theorem execBufferEntryRead_keeps (data : List Byte) (s : State) : NextKeeps s (execBufferEntryRead data s) := by
  refine .next ?_
  split
  · exact .refl s
  · exact (advanceRing_keeps .buffer s).trans (.trans .of_view ((bufferArrived_keeps _).trans
      ((Keeps.of_unchanged (bufferTest_frame _)).trans (follow_keeps _))))

/-! ## Control records -/

theorem finishRecord_keeps (r : ControlResult) (s : State) : Keeps s (s.finishRecord r) :=
  .of_unchanged (finishRecord_frame r s)

/-- A control record keeps the invariants as what carries it out does. -/
theorem takeRecord_keeps (f : State → State) (s : State) (hf : ∀ u, Keeps u (f u)) : NextKeeps s (.next (s.takeRecord f)) := by
  refine .next ?_
  unfold State.takeRecord
  split
  · exact .refl s
  · exact (advanceRing_keeps .control s).trans (.trans .of_view (hf _))

theorem execWindowSet_keeps (tag : Word) (number : Half) (window : WindowDef) (s : State) :
    NextKeeps s (execWindowSet tag number window s) := by
  refine takeRecord_keeps _ s fun u => ?_
  dsimp only
  split
  · exact .refl u
  · exact .trans .of_view (finishRecord_keeps _ _)

theorem execOrderSet_keeps (tag : Word) (values : List Byte) (s : State) : NextKeeps s (execOrderSet tag values s) :=
  takeRecord_keeps _ s fun u => .ite (fun _ => finishRecord_keeps _ u) fun _ => .ite (fun _ => finishRecord_keeps _ u)
    fun _ => .trans .of_view (finishRecord_keeps _ _)

theorem hold_keeps (j : Job) (s : State) : Keeps s (s.hold j) := .of_view

theorem sensorAccess_keeps (kind : Byte) (j : Job) (s : State) : Keeps s (s.sensorAccess kind j) := by
  unfold State.sensorAccess
  split
  · exact finishRecord_keeps _ s
  · exact finishRecord_keeps _ s
  · exact hold_keeps j s
  · exact (hold_keeps j s).trans (.trans .of_view (arbitrate_keeps _))

theorem checkAddress_keeps (kind : Byte) (tag : Word) (address : Half) (f : State → State) (s : State)
    (hf : ∀ u, Keeps u (f u)) : Keeps s (s.checkAddress kind tag address f) :=
  .ite (fun _ => hf s) fun _ => finishRecord_keeps _ s

theorem stage_keeps (tag : Word) (address value : Half) (s : State) : Keeps s (s.stage tag address value) := by
  refine .ite (fun _ => ?_) fun _ => finishRecord_keeps _ s
  refine .trans ?_ ((gapEvaluateAll_keeps _).trans ((Keeps.of_unchanged (engineTest_frame _)).trans (follow_keeps _)))
  exact .trans .of_view (.ite (fun _ => .of_unchanged (discardWaiting_frame _)) fun _ => .refl _)

theorem execSensorPowerOff_keeps (tag : Word) (replay : Bool) (s : State) : NextKeeps s (execSensorPowerOff tag replay s) :=
  takeRecord_keeps _ s fun u => .ite (fun _ => finishRecord_keeps _ u) fun _ =>
    (removePower_keeps u).trans ((finishRecord_keeps _ _).trans (follow_keeps _))

/-- Power is applied for a record that then stays in hand (R124, R127). -/
theorem applyPower_hold_keeps (replay : Bool) (j : Job) (s : State) : Keeps s ((s.applyPower replay).hold j).follow :=
  (Keeps.of_unchanged (applyPower_frame replay s)).trans ((hold_keeps j _).trans (follow_keeps _))

theorem execSensorPowerOn_keeps (tag : Word) (replay : Bool) (s : State) : NextKeeps s (execSensorPowerOn tag replay s) := by
  refine takeRecord_keeps _ s fun u => ?_
  split
  · exact applyPower_hold_keeps replay _ u
  · exact hold_keeps _ u
  · exact hold_keeps _ u
  · exact finishRecord_keeps _ u

theorem execSensorPowerCycle_keeps (tag : Word) (replay : Bool) (s : State) :
    NextKeeps s (execSensorPowerCycle tag replay s) :=
  takeRecord_keeps _ s fun u => .trans (.ite (fun _ => .refl u) fun _ => removePower_keeps u)
    (applyPower_hold_keeps replay _ _)

theorem execFlushStaged_keeps (tag : Word) (s : State) : NextKeeps s (execFlushStaged tag s) :=
  takeRecord_keeps _ s fun u => .ite (fun _ => finishRecord_keeps _ u) fun _ => (hold_keeps _ u).trans (follow_keeps _)

theorem execDiscardStaged_keeps (tag : Word) (s : State) : NextKeeps s (execDiscardStaged tag s) :=
  takeRecord_keeps _ s fun u => (Keeps.of_unchanged (discardWaiting_frame u)).trans ((finishRecord_keeps _ _).trans
    ((gapEvaluateAll_keeps _).trans (follow_keeps _)))

theorem execStopTag_keeps (tag request : Word) (mode : StopKind) (s : State) :
    NextKeeps s (execStopTag tag request mode s) := by
  refine takeRecord_keeps _ s fun u => ?_
  split
  · exact finishRecord_keeps _ u
  · rename_i h
    exact (stopByTag_keeps h).trans ((finishRecord_keeps _ _).trans (follow_keeps _))

theorem execStopAll_keeps (tag request : Word) (mode : StopKind) (s : State) :
    NextKeeps s (execStopAll tag request mode s) :=
  takeRecord_keeps _ s fun u => (stopAllRequests_keeps mode u).trans ((finishRecord_keeps _ _).trans
    ((Keeps.of_unchanged (captureTest_frame _)).trans (follow_keeps _)))

/-! ## Frames and requests -/

theorem frameToBegin_some {s : State} {e : Entry} {r : CaptureRequest} (h : s.frameToBegin = some (e, r)) :
    s.liveRequest = some r ∧ s.ctx s.seq.next = none ∧ s.otherAllows r (other s.seq.next) = true := by
  unfold State.frameToBegin at h
  split at h
  · rename_i live
    split at h
    · rename_i hc
      obtain ⟨-, -, -, next, allows⟩ := hc
      cases h
      exact ⟨live, next, allows⟩
    · cases h
  · cases h

theorem otherAllows_beforeReadout {s : State} {r : CaptureRequest} {c : CtxId} (h : s.otherAllows r c = true) :
    s.beforeReadout c = false := by
  unfold State.otherAllows at h
  cases hf : s.ctx c with
  | none => simp [State.beforeReadout, hf]
  | some f =>
    rw [beforeReadout_of_ctx hf, Frame.beforeReadout]
    simp only [hf, Bool.or_eq_true, decide_eq_true_eq, Bool.and_eq_true] at h
    obtain h | ⟨-, h⟩ := h <;> simp [h]

/-- A frame is begun in a FREE context while the other is in none of the states before READOUT (R13, R29). -/
theorem newFrame_keeps {s : State} {r : CaptureRequest} {c : CtxId} (live : s.liveRequest = some r) (hc : s.ctx c = none)
    (hother : s.beforeReadout (other c) = false) (index : Nat) (windows : List Nat) :
    Keeps s (s.setCtx c (some (newFrame index windows))) := by
  refine .of_apart (fun hs => ?_) (setCtx_frame c _ s)
  rw [framesApart_iff] at hs ⊢
  obtain ⟨apart, recv⟩ := hs
  have phase : ∀ p, s.inPhase c p = false := fun p => by simp [State.inPhase, hc]
  refine ⟨apart.setCtx c _ (by simp [live]) (fun _ => hother) ?_ ?_ ?_ ?_, recv.setCtx c _ ?_⟩
  · simp [newFrame]
  · exact fun he => .inr (apart.expose_other (phase _) he)
  · exact fun hb => .inr (apart.strobe_other (phase _) (phase _) hb)
  · simp [newFrame]
  · simp [newFrame, phase]

theorem execFrameBegin_keeps (s : State) : NextKeeps s (execFrameBegin s) := by
  refine .next ?_
  split
  · exact .refl s
  · rename_i e r h
    obtain ⟨live, next, allows⟩ := frameToBegin_some h
    exact (newFrame_keeps live next (otherAllows_beforeReadout allows) _ _).trans (.trans .of_view (updHead_keeps _ _))

theorem filteredTransition_keeps (s : State) : Keeps s s.filteredTransition := by
  unfold State.filteredTransition
  dsimp only
  refine .trans (t := { s with seq := { s.seq with trigger := s.seq.pin, hold := none } }) .of_view ?_
  generalize ({ s with seq := { s.seq with trigger := s.seq.pin, hold := none } } : State) = u
  have start : ∀ r, Keeps u (u.startEvent r).follow := fun r => (startEvent_keeps r u).trans (follow_keeps _)
  split
  · exact .refl u
  · split
    · exact .refl u
    · exact .refl u
    · exact .ite (fun _ => start _) fun _ => .refl u
    · exact .ite (fun _ => start _) fun _ => (endEvent_keeps u).trans (follow_keeps _)

theorem execTriggerTransition_keeps (p : TriggerStep) (s : State) : NextKeeps s (execTriggerTransition p s) := by
  refine .next ?_
  cases p with
  | pin level => exact .of_unchanged (pinChanges_frame level s)
  | held => exact .ite (fun _ => filteredTransition_keeps s) fun _ => .refl s

theorem execIntervalTick_keeps (s : State) : NextKeeps s (execIntervalTick s) := by
  refine .next ?_
  split
  · exact .ite (fun _ => .trans .of_view ((startEvent_keeps _ _).trans (follow_keeps _))) fun _ => .refl s
  · exact .refl s

theorem execTriggerTimeoutExpiry_keeps (c : CtxId) (s : State) : NextKeeps s (execTriggerTimeoutExpiry c s) := by
  refine .next ?_
  split
  · exact .refl s
  · rename_i f hf
    refine .ite (fun h => ?_) fun _ => .refl s
    exact (closeFrame_keeps_of_phase hf _ (by simp [h.1]) (by simp [h.1]) (by simp [h.1])).trans (follow_keeps _)

theorem execLeadExpiry_keeps (c : CtxId) (s : State) : NextKeeps s (execLeadExpiry c s) := by
  refine .next ?_
  split
  · rename_i f r hf _
    refine .ite (fun h => ?_) fun _ => .refl s
    exact (enterExposing_keeps r c s (.inr (by simp [inPhase_of_ctx hf, h.1]))).trans (follow_keeps _)
  · exact .refl s

theorem execExposureTimerExpiry_keeps (c : CtxId) (s : State) : NextKeeps s (execExposureTimerExpiry c s) := by
  refine .next ?_
  split
  · exact .refl s
  · rename_i f hf
    refine .ite (fun h => ?_) fun _ => .refl s
    refine (updCtx_keeps c _ s).trans (.ite (fun _ => .refl _) fun _ => ?_)
    refine (exposureWouldEnd_keeps c _ ?_).trans (follow_keeps _)
    exact (updCtx_inPhase_same s c _ _).trans (by simp [inPhase_of_ctx hf, h.1])

theorem frameToPost_some {s : State} {c : CtxId} {e : Entry} {f : Frame} (h : s.frameToPost c = some (e, f)) :
    s.inPhase c .closing = true := by
  unfold State.frameToPost at h
  split at h
  · rename_i hf
    split at h
    · rename_i hc
      simp [inPhase_of_ctx hf, hc.1]
    · cases h
  · cases h

theorem freeCtx_keeps (c : CtxId) (s : State) (h : s.inPhase c .closing = true) : Keeps s (s.setCtx c none) := by
  refine .of_apart (fun hs => ?_) (setCtx_frame c none s)
  rw [framesApart_iff] at hs ⊢
  obtain ⟨f, hf, hp⟩ := ctx_of_inPhase h
  exact ⟨hs.1.freeCtx c h, hs.2.setCtx c _ (by simp [inPhase_of_ctx hf, hp])⟩

theorem execFramePost_keeps (c : CtxId) (s : State) : NextKeeps s (execFramePost c s) := by
  refine .next ?_
  split
  · exact .refl s
  · rename_i e f h
    have posted := handOver_frame (.frame (frameReport e s.recv.stray f)) s
    refine (Keeps.of_unchanged posted).trans (.trans .of_view
      ((freeCtx_keeps c _ ?_).trans ((updHead_keeps _ _).trans (follow_keeps _))))
    have ctx := ctx_of_contexts posted c
    have closing := frameToPost_some h
    rw [State.inPhase] at closing ⊢
    rw [← ctx] at closing
    cases c <;> exact closing

/-- The head leaves the queue as its request ends. -/
theorem dequeue_keeps (s : State) (h : s.requestEnds = true) (rest : List Entry) :
    Keeps s { s with sched := { s.sched with queue := rest } } := by
  have queue := setQueue_frame rest s
  exact .of_apart (fun hs => framesApart_of_contextsFree hs (contextsFree_of_requestEnds hs h) queue) queue

theorem execRequestEnd_keeps (s : State) : NextKeeps s (execRequestEnd s) := by
  refine .next (.ite (fun h => ?_) fun _ => .refl s)
  split
  · exact .refl s
  · rename_i e rest _
    exact (dequeue_keeps s h rest).trans (.trans .of_view ((Keeps.of_unchanged (handOver_frame _ _)).trans
      ((becomeActive_keeps _).trans (.of_unchanged (captureTest_frame _)))))

/-! ## The sensor port and coalescing -/

theorem execAckTimeout_keeps (s : State) : NextKeeps s (execAckTimeout s) :=
  .next (.ite (fun _ => transactionEnds_keeps false 0 s) fun _ => .refl s)

theorem execSettleTimerExpiry_keeps (s : State) : NextKeeps s (execSettleTimerExpiry s) :=
  .next (.ite (fun _ => .trans .of_view (.ite (fun _ => .trans .of_view (follow_keeps _)) fun _ =>
    (becomeReady_keeps _).trans (follow_keeps _))) fun _ => .refl s)

theorem execCoalescingTimerExpiry_keeps (s : State) : NextKeeps s (execCoalescingTimerExpiry s) :=
  .next (.ite (fun _ => .trans .of_view (.of_unchanged (raise_frame _ _))) fun _ => .refl s)

/-! ## The pixel stream and the Output Store -/

theorem countStray_keeps (s : State) : Keeps s s.countStray := .of_view

@[simp] theorem updCtx_recv (s : State) (c : CtxId) (g : Frame → Frame) : (s.updCtx c g).recv = s.recv := by
  unfold State.updCtx; split <;> simp

/-- The receiver changes and serves the same context, idle as before. -/
theorem setRecv_keeps (s : State) (r : Receiver) (served : r.served = s.recv.served)
    (idle : r.state = .idle ↔ s.recv.state = .idle) : Keeps s { s with recv := r } := by
  refine ⟨fun hs => ?_, stopForm_of_view rfl⟩
  rw [framesApart_iff] at hs ⊢
  refine ⟨hs.1.setRecv r, ⟨fun c => ?_, idle.trans (hs.2.idle.trans ?_)⟩⟩
  · show r.served = some c ↔ _; rw [served]; exact hs.2.served c
  · show _ ↔ r.served = none; rw [served]

/-- The receiver goes idle, and the readout it served ends. -/
theorem readoutEnd_keeps {s : State} {c : CtxId} (served : s.recv.served = some c) (r : Receiver) (idle : r.state = .idle)
    (none : r.served = none) : Keeps s (State.readoutEnd c { s with recv := r }) := by
  refine ⟨fun hs => ?_, fun hs => readoutEnd_stopForm c _ (stopForm_of_view rfl hs)⟩
  obtain ⟨apart, recv⟩ := (framesApart_iff s).mp hs
  exact readoutEnd_framesApart (apart.setRecv r) c idle none (apart.readout c ((recv.served c).mp served))

theorem execFrameStart_keeps (number : Byte) (s : State) : NextKeeps s (execFrameStart number s) := by
  refine .next ?_
  split
  · rename_i c state served
    exact (updCtx_keeps c _ s).trans (setRecv_keeps _ _ rfl (by simp [state]))
  · rename_i c _ served
    exact (updCtx_keeps c Frame.flagSequence s).trans
      ((readoutEnd_keeps (by simpa using served) _ rfl rfl).trans (follow_keeps _))
  · exact countStray_keeps s

theorem deliverLine_keeps (c : CtxId) (number : Nat) (pixels : List Nat) (s : State) :
    Keeps s (s.deliverLine c number pixels) := by
  unfold State.deliverLine
  split
  · exact .ite (fun _ => .refl s) fun _ => .of_view
  · exact .refl s

theorem testLine_keeps (c : CtxId) (number : Nat) (pixels : List Nat) (check : Half) (s : State) :
    Keeps s (s.testLine c number pixels check) :=
  .ite (fun _ => updCtx_keeps c Frame.countBad s) fun _ =>
    .trans (.ite (fun _ => .refl s) fun _ => updCtx_keeps c Frame.countBad s) (deliverLine_keeps c number pixels _)

theorem takeLine_keeps (c : CtxId) (number : Nat) (s : State) : Keeps s (s.takeLine c number) :=
  (updCtx_keeps c (fun f => { f with missingLines := f.missingLines + (number - s.recv.expected) }) s).trans .of_view

theorem receiveLine_keeps (c : CtxId) (number : Nat) (pixels : List Nat) (check : Half) (s : State) :
    Keeps s (s.receiveLine c number pixels check) :=
  .ite (fun _ => updCtx_keeps c Frame.flagSequence s) fun _ =>
    .trans (.ite (fun _ => .refl s) fun _ => updCtx_keeps c Frame.flagSequence s)
      ((takeLine_keeps c number _).trans (testLine_keeps c number pixels check _))

theorem execLine_keeps (number : Half) (pixels : List Half) (check : Half) (s : State) :
    NextKeeps s (execLine number pixels check s) := by
  refine .next ?_
  split
  · exact receiveLine_keeps _ _ _ _ s
  · exact countStray_keeps s

theorem execFrameEnd_keeps (count : Half) (s : State) : NextKeeps s (execFrameEnd count s) := by
  refine .next ?_
  split
  · rename_i c _ served
    refine .trans (t := if s.recv.expected < s.lines ∨ count.toNat ≠ s.lines then s.updCtx c Frame.flagSequence else s)
      (.ite (fun _ => updCtx_keeps c Frame.flagSequence s) fun _ => .refl s) ?_
    refine (updCtx_keeps c _ _).trans ((readoutEnd_keeps ?_ _ rfl rfl).trans (follow_keeps _))
    split <;> simpa using served
  · exact countStray_keeps s

theorem execFrameTimerExpiry_keeps (s : State) : NextKeeps s (execFrameTimerExpiry s) := by
  refine .next ?_
  split
  · exact .refl s
  · exact .refl s
  · rename_i c served _
    exact .ite (fun _ => (updCtx_keeps c _ s).trans
      ((readoutEnd_keeps (by simpa using served) _ rfl rfl).trans (follow_keeps _))) fun _ => .refl s

theorem offerSlice_keeps (sl : Slice) (s : State) : Keeps s (s.offerSlice sl) := by
  unfold State.offerSlice
  split
  · exact .refl s
  · exact .ite (fun _ => .refl s) fun _ => .ite (fun _ => updCtx_keeps sl.ctx _ s) fun _ => .of_view

theorem execSliceOffer_keeps (s : State) : NextKeeps s (execSliceOffer s) := by
  refine .next ?_
  split
  · exact .refl s
  · exact .trans .of_view (offerSlice_keeps _ _)

theorem execSliceWriteDone_keeps (s : State) : NextKeeps s (execSliceWriteDone s) := by
  refine .next ?_
  split
  · exact .refl s
  · rename_i sl rest _
    refine .trans (t := { s with store := { s.store with slices := rest } }) .of_view ?_
    dsimp only
    split
    · exact .refl _
    · exact (Keeps.of_unchanged (issue_frame _ _)).trans (updCtx_keeps sl.ctx (Frame.addWritten sl.position sl.size) _)

/-! ## Every step -/

theorem exec_keeps (i : Instr) (s : State) : NextKeeps s (exec i s) := by
  cases i with
  | powerOn pin => exact .next (partReset_keeps false pin s)
  | functionReset pin => exact .next (partReset_keeps false pin s)
  | partReset enable pin => exact .next (partReset_keeps true pin s)
  | enableSet => exact execEnableSet_keeps s
  | enableClear => exact execEnableClear_keeps s
  | intCauseWrite value => exact .next (.of_unchanged (setCauses_frame _ _ s))
  | intMaskWrite value => exact .next (.of_unchanged (setCauses_frame _ _ s))
  | msiEnableWrite enabled => exact .next .of_view
  | setupAddrWrite half value => exact execSetupAddrWrite_keeps half value s
  | tailWrite ring value => exact execTailWrite_keeps ring value s
  | cplHeadWrite value => exact execCplHeadWrite_keeps value s
  | registerWriteOther offset width value => exact .next (.refl s)
  | setupReadDone data => exact execSetupReadDone_keeps data s
  | setupReadError reason => exact .next (readFails_keeps .setup s)
  | hostReadTimeout read => exact execHostReadTimeout_keeps read s
  | fetchReadError ring reason => exact .next (readFails_keeps (.ring ring) s)
  | drainFinish => exact execDrainFinish_keeps s
  | creditGrant => exact .next ((grantPass_keeps grantOrder s).trans (follow_keeps _))
  | captureRecordRead data => exact execCaptureRecordRead_keeps data s
  | bufferEntryRead data => exact execBufferEntryRead_keeps data s
  | mark tag => exact takeRecord_keeps _ s fun u => finishRecord_keeps _ u
  | badRecord kind tag => exact takeRecord_keeps _ s fun u => finishRecord_keeps _ u
  | windowSet tag number window => exact execWindowSet_keeps tag number window s
  | windowClear tag number => exact takeRecord_keeps _ s fun u => .trans .of_view (finishRecord_keeps _ _)
  | orderSet tag values => exact execOrderSet_keeps tag values s
  | sensorWriteNow tag address value =>
    exact takeRecord_keeps _ s fun u => checkAddress_keeps _ tag address _ u fun v => sensorAccess_keeps _ _ v
  | sensorWriteStaged tag address value =>
    exact takeRecord_keeps _ s fun u => checkAddress_keeps _ tag address _ u fun v => stage_keeps tag address value v
  | sensorRead tag address =>
    exact takeRecord_keeps _ s fun u => checkAddress_keeps _ tag address _ u fun v => sensorAccess_keeps _ _ v
  | sensorPowerOff tag replay => exact execSensorPowerOff_keeps tag replay s
  | sensorPowerOn tag replay => exact execSensorPowerOn_keeps tag replay s
  | sensorPowerCycle tag replay => exact execSensorPowerCycle_keeps tag replay s
  | flushStaged tag => exact execFlushStaged_keeps tag s
  | discardStaged tag => exact execDiscardStaged_keeps tag s
  | stopTag tag request mode => exact execStopTag_keeps tag request mode s
  | stopAll tag request mode => exact execStopAll_keeps tag request mode s
  | frameBegin => exact execFrameBegin_keeps s
  | triggerTransition p => exact execTriggerTransition_keeps p s
  | intervalTick => exact execIntervalTick_keeps s
  | triggerTimeoutExpiry ctx => exact execTriggerTimeoutExpiry_keeps ctx s
  | leadExpiry ctx => exact execLeadExpiry_keeps ctx s
  | exposureTimerExpiry ctx => exact execExposureTimerExpiry_keeps ctx s
  | frameStart number => exact execFrameStart_keeps number s
  | line number pixels check => exact execLine_keeps number pixels check s
  | frameEnd count => exact execFrameEnd_keeps count s
  | unknownPacket => exact .next (countStray_keeps s)
  | frameTimerExpiry => exact execFrameTimerExpiry_keeps s
  | sliceOffer => exact execSliceOffer_keeps s
  | sliceWriteDone => exact execSliceWriteDone_keeps s
  | framePost ctx => exact execFramePost_keeps ctx s
  | requestEnd => exact execRequestEnd_keeps s
  | coalescingTimerExpiry => exact execCoalescingTimerExpiry_keeps s
  | sensorAck value => exact .next (transactionEnds_keeps true value s)
  | ackTimeout => exact execAckTimeout_keeps s
  | settleTimerExpiry => exact execSettleTimerExpiry_keeps s
  | sensorPowerBadField tag action => exact takeRecord_keeps _ s fun u => finishRecord_keeps _ u

theorem idle_keeps (s : State) : Keeps s s.idle := by
  unfold State.idle
  split
  · exact .of_view
  · exact .ite (fun _ => (replayNext_keeps s).trans (follow_keeps _)) fun _ => .of_view

theorem step_keeps (s : State) : NextKeeps s (step s) := by
  unfold step
  split
  · exact .next (idle_keeps s)
  · exact fun t ht => .trans .of_view (exec_keeps _ _ t ht)

/-- Settles O58: every command keeps both invariants (`exec_keeps`), and so does a step on an empty queue. -/
theorem stepKeepsFramesApart : Obligations.StepKeepsFramesApart := by
  unfold Obligations.StepKeepsFramesApart
  exact fun s t h => step_keeps s t h

end Sys2Proof.Machine
end

section
/-! SUPPORT for O26 to O28. A control record that its block carries out and finishes at once: the record is read, the block
changes what is its own, and the engine posts the completion and turns to the next record (R138, R153, R156). -/

set_option Elab.async false

namespace Sys2Proof.Machine

open Sys2Proof

/-! ## Reading and finishing a record -/

/-- The state in which a control record is carried out: its read over, the head advanced, the Progress Block issued and the
engine in EXECUTING (`takeRecord_recordTaken`). -/
def State.recordTaken (u : Setup) (s : State) : State :=
  { s with
    ring := { s.ring with ctlRead := none, ctlHead := nextControlHead u s }
    engine := { s.engine with mode := .executing }
    link := { s.link with issued := s.link.issued ++ [recordProgress u s] } }

theorem takeRecord_recordTaken {u : Setup} {s : State} (h : s.readingControl u) (f : State → State) :
    s.takeRecord f = f (s.recordTaken u) := takeRecord_eq f s u h

theorem recordTaken_frame (u : Setup) (s : State) : unchangedBut [.ctlRing, .engine, .issued] s (s.recordTaken u) := by
  intro p hp
  cases p <;> simp [Part.same, State.recordTaken] at hp ⊢

/-- In IDLE the test of R133 begins no read. -/
theorem engineTest_ring_of_idle {s : State} (h : s.engine.mode = .idle) : s.engineTest.ring = s.ring := by
  simp only [State.engineTest, h]
  split <;> rfl

@[simp] theorem engineTest_link (s : State) : s.engineTest.link = s.link := by
  unfold State.engineTest
  (repeat' split) <;> rfl

@[simp] theorem engineTest_cpl (s : State) : s.engineTest.cpl = s.cpl := by
  unfold State.engineTest
  (repeat' split) <;> rfl

theorem finishRecord_ring (r : ControlResult) (s : State) : (s.finishRecord r).ring = (s.handOver (.control r)).ring :=
  engineTest_ring_of_idle rfl

/-- Finishing a record posts its CONTROL completion (R138). -/
theorem finishRecord_posts {u : Setup} {s : State} (h : s.ring.setup = some u) (r : ControlResult) :
    Posts u [] [.control r] s (s.finishRecord r) := by
  have posts := handOver_posts u (.control r) s h
  simpa [Posts, State.finishRecord, State.handed] using posts

/-- A record that is read, has posted `cs` and is then finished is done, with its own completion behind `cs`. -/
theorem RecordDone.of_finish {u : Setup} {ps : List Part} {cs : List Completion} {s v : State} (h : s.readingControl u)
    (taken : RecordTaken u s v) (posts : Posts u [recordProgress u s] cs s v) (frame : unchangedBut ps s v)
    (r : ControlResult)
    (hps : ([Part.time, .partState, .msi, .tails, .setup, .mask].all fun p => !ps.contains p) = true := by decide) :
    RecordDone u (cs ++ [.control r]) s (v.finishRecord r) := by
  simp only [List.all_cons, List.all_nil, Bool.and_true, Bool.and_eq_true, Bool.not_eq_true'] at hps
  obtain ⟨time, part, msi, tails, setup, mask⟩ := hps
  have held : v.ring.setup = some u := (frame.get .setup setup).trans h.2
  have partState : v.link.part = s.link.part := frame.get .partState part
  have tail : v.ring.ctlTail = s.ring.ctlTail := congrArg Prod.fst (frame.get .tails tails)
  obtain ⟨head, read⟩ := taken
  have ring := (handOver_frame (.control r) v).get .ctlRing
  simp only [Part.same, Prod.mk.injEq] at ring
  refine ⟨⟨?head, ?read⟩, ?posts, ?engine⟩
  case head => rw [finishRecord_ring, ring.1, head]
  case read => rw [finishRecord_ring, ring.2, read]
  case posts =>
    exact posts.append (finishRecord_posts held r) (frame.get .time time) (frame.get .msi msi) (frame.get .mask mask)
  case engine =>
    simp [finishRecord_engine, engineAfterRecord, State.ringWaiting, State.ringHead, State.ringTail, partState, head, tail]

/-! ## Records of the Window Cutter and of the Line Assembler -/

/-- The state with the Window Table and the segment order table so. -/
def State.setTables (windows : List WindowEntry) (order : List Nat) (s : State) : State :=
  { s with cutter := { s.cutter with windows := windows, order := order } }

@[simp] theorem finishRecord_windows (r : ControlResult) (s : State) :
    (s.finishRecord r).cutter.windows = s.cutter.windows :=
  (finishRecord_frame r s).get .windows

@[simp] theorem finishRecord_order (r : ControlResult) (s : State) : (s.finishRecord r).cutter.order = s.cutter.order :=
  (finishRecord_frame r s).get .order

theorem setTables_frame (windows : List WindowEntry) (order : List Nat) (s : State) :
    unchangedBut [.windows, .order] s (s.setTables windows order) := by
  intro p hp
  cases p <;> simp [Part.same, State.setTables] at hp ⊢

/-- The state after a record that sets these tables and is finished at once. -/
def State.tablesRecord (u : Setup) (windows : List WindowEntry) (order : List Nat) (r : ControlResult) (s : State) : State :=
  ((s.recordTaken u).setTables windows order).finishRecord r

@[simp] theorem tablesRecord_windows (u : Setup) (windows : List WindowEntry) (order : List Nat) (r : ControlResult)
    (s : State) : (s.tablesRecord u windows order r).cutter.windows = windows := finishRecord_windows _ _

@[simp] theorem tablesRecord_order (u : Setup) (windows : List WindowEntry) (order : List Nat) (r : ControlResult)
    (s : State) : (s.tablesRecord u windows order r).cutter.order = order := finishRecord_order _ _

theorem tablesRecord_done {u : Setup} {s : State} (h : s.readingControl u) (windows : List WindowEntry) (order : List Nat)
    (r : ControlResult) : RecordDone u [.control r] s (s.tablesRecord u windows order r) := by
  have frame : unchangedBut [.ctlRing, .engine, .issued, .windows, .order] s ((s.recordTaken u).setTables windows order) :=
    ((recordTaken_frame u s).widen _).trans ((setTables_frame windows order _).widen _)
  have progress : Posts u [recordProgress u s] [] s ((s.recordTaken u).setTables windows order) :=
    ⟨by simp [runWrites, State.recordTaken, State.setTables], rfl, rfl, rfl⟩
  exact .of_finish h ⟨rfl, rfl⟩ progress frame r

theorem tablesRecord_frame (u : Setup) (windows : List WindowEntry) (order : List Nat) (r : ControlResult) (s : State) :
    unchangedBut (.windows :: .order :: recordParts) s (s.tablesRecord u windows order r) :=
  ((recordTaken_frame u s).widen _).trans
    (((setTables_frame windows order _).widen _).trans ((finishRecord_frame r _).widen _))

/-- A piece whose table is set to what it was is unchanged. -/
theorem unchangedBut.drop {p : Part} {ps : List Part} {s t : State} (h : unchangedBut (p :: ps) s t) (same : p.same s t) :
    unchangedBut ps s t := fun q hq => by
  by_cases hp : q = p
  · exact hp ▸ same
  · exact h q (by simp [hp, hq])

/-- A refused record leaves both tables as they were. -/
theorem tablesRecord_refused (u : Setup) (r : ControlResult) (s : State) :
    unchangedBut recordParts s (s.tablesRecord u s.cutter.windows s.cutter.order r) :=
  ((tablesRecord_frame u _ _ r s).drop (tablesRecord_windows ..)).drop (tablesRecord_order ..)

/-- A record for the Window Cutter leaves the segment order as it was. -/
theorem tablesRecord_windows_frame (u : Setup) (windows : List WindowEntry) (r : ControlResult) (s : State) :
    unchangedBut (.windows :: recordParts) s (s.tablesRecord u windows s.cutter.order r) :=
  ((tablesRecord_frame u _ _ r s).widen (.order :: .windows :: recordParts)).drop (tablesRecord_order ..)

/-- A record for the Line Assembler leaves the windows as they were. -/
theorem tablesRecord_order_frame (u : Setup) (order : List Nat) (r : ControlResult) (s : State) :
    unchangedBut (.order :: recordParts) s (s.tablesRecord u s.cutter.windows order r) :=
  (tablesRecord_frame u _ _ r s).drop (tablesRecord_windows ..)

/-! ## The checks of Table 22 -/

theorem firstFailed_cons {α : Type} (p : Prop) [Decidable p] (report : α) (rest : List (Bool × α)) :
    firstFailed ((decide p, report) :: rest) = if ¬ p then some report else firstFailed rest := by
  by_cases h : p <;> simp [firstFailed, h]

theorem firstFailed_cons_eq_none {α : Type} (p : Prop) [Decidable p] (report : α) (rest : List (Bool × α)) :
    firstFailed ((decide p, report) :: rest) = none ↔ p ∧ firstFailed rest = none := by
  by_cases h : p <;> simp [firstFailed, h]

theorem isSkip_iff (n : Nat) : isSkip n = true ↔ n ∈ [1, 2, 4] := by simp [isSkip]

/-- The model's checks of a WINDOW_SET are those of Table 22, in its order (R59). -/
theorem windowSetCheck_eq (u : Setup) (windows : List WindowEntry) (n : Nat) (w : WindowDef) :
    windowSetCheck u windows n w = firstFailed (windowChecks u windows n w) := by
  unfold windowSetCheck windowChecks
  simp only [firstFailed_cons]
  refine if_congr (by omega) rfl <| if_congr Iff.rfl rfl <| if_congr (by omega) rfl <| if_congr ?skip rfl <|
    if_congr ?multiple rfl <| if_congr ?origin rfl <| if_congr ?extent rfl <| if_congr ?bytes rfl rfl
  case skip => simp only [← isSkip_iff, Bool.not_eq_true', ← Bool.and_eq_true, Bool.not_eq_true]
  case multiple => simp only [skipStep, Nat.dvd_iff_mod_eq_zero]; tauto
  case origin => simp only [Nat.dvd_iff_mod_eq_zero]; tauto
  case extent => simp only [WindowDef.inside, Bool.not_eq_true', decide_eq_false_iff_not]
  case bytes => exact Nat.not_le.symm

/-! ## The Window Table -/

@[simp] theorem setWindow_length (n : Nat) (w : Option WindowDef) (windows : List WindowEntry) :
    (setWindow n w windows).length = windows.length := by simp [setWindow]

theorem windowAt_setWindow_same {n : Nat} {windows : List WindowEntry} (h : n < windows.length) (w : Option WindowDef) :
    windowAt (setWindow n w windows) n = { windowAt windows n with window := w } := by
  simp [windowAt, setWindow, h]

theorem windowAt_setWindow_other {m n : Nat} (h : m ≠ n) (w : Option WindowDef) (windows : List WindowEntry) :
    windowAt (setWindow n w windows) m = windowAt windows m := by
  simp [windowAt, setWindow, List.getD_eq_getElem?_getD, List.getElem?_set_ne h.symm]

/-- A record that sets an entry of count 0 and is finished: the entry so, every other one and the table's length as they
were, and nothing else. -/
theorem tablesRecord_setWindow {u : Setup} {s : State} {n : Nat} (h : s.readingControl u)
    (length : s.cutter.windows.length = 16) (number : n ≤ 15) (free : (windowAt s.cutter.windows n).refs = 0)
    (w : Option WindowDef) (r : ControlResult) :
    let t := s.tablesRecord u (setWindow n w s.cutter.windows) s.cutter.order r
    RecordDone u [.control r] s t ∧ windowAt t.cutter.windows n = { window := w, refs := 0 } ∧
      t.cutter.windows.length = 16 ∧ (∀ m, m ≠ n → windowAt t.cutter.windows m = windowAt s.cutter.windows m) ∧
      unchangedBut (.windows :: recordParts) s t := by
  refine ⟨tablesRecord_done h _ _ r, ?entry, ?length, ?others, tablesRecord_windows_frame u _ r s⟩
  all_goals rw [tablesRecord_windows]
  case entry => simp only [windowAt_setWindow_same (show n < s.cutter.windows.length by omega), free]
  case length => rw [setWindow_length, length]
  case others => exact fun m other => windowAt_setWindow_other other w s.cutter.windows

/-! ## The three records -/

/-- WINDOW_SET sets the table, and reports, as `windowSetResult` has it. -/
theorem exec_windowSet {u : Setup} {s : State} (h : s.readingControl u) (tag : Word) (number : Half) (w : WindowDef) :
    exec (.windowSet tag number w) s = .next (s.tablesRecord u
      (windowSetResult u s.cutter.windows number.toNat w).1 s.cutter.order
      { kind := 0x02
        tag := tag
        status := (windowSetResult u s.cutter.windows number.toNat w).2.1
        detail := (windowSetResult u s.cutter.windows number.toNat w).2.2 }) := by
  show Host.Outcome.next (s.takeRecord _) = _
  rw [takeRecord_recordTaken h]
  have held : (s.recordTaken u).ring.setup = some u := h.2
  simp only [held]
  rfl

/-- WINDOW_CLEAR sets the table, and reports, as `windowClearResult` has it. -/
theorem exec_windowClear {u : Setup} {s : State} (h : s.readingControl u) (tag : Word) (number : Half) :
    exec (.windowClear tag number) s = .next (s.tablesRecord u
      (windowClearResult s.cutter.windows number.toNat).1 s.cutter.order
      { kind := 0x03
        tag := tag
        status := (windowClearResult s.cutter.windows number.toNat).2.1
        detail := (windowClearResult s.cutter.windows number.toNat).2.2 }) := by
  show Host.Outcome.next (s.takeRecord _) = _
  rw [takeRecord_recordTaken h]
  rfl

/-- Settles O26, by the outcome of the checks: the table that `windowSetResult` gives is the old one or has the entry set. -/
theorem windowSetFollowsTable22 : Obligations.WindowSetFollowsTable22 := by
  unfold Obligations.WindowSetFollowsTable22
  intro u tag number w s h length
  have run := exec_windowSet h tag number w
  unfold windowSetResult at run
  rw [windowSetCheck_eq] at run
  constructor
  · intro refusal failed
    rw [failed] at run
    exact ⟨_, run, tablesRecord_done h .., tablesRecord_refused u _ s⟩
  · intro passed
    rw [passed] at run
    simp only [windowChecks, firstFailed_cons_eq_none] at passed
    obtain ⟨inTable, free, -⟩ := passed
    exact ⟨_, run, tablesRecord_setWindow h length inTable free (some w) _⟩

/-- Settles O27, by the cases of Table 23. -/
theorem windowClearFollowsTable23 : Obligations.WindowClearFollowsTable23 := by
  unfold Obligations.WindowClearFollowsTable23
  intro u tag number s h length
  have run := exec_windowClear h tag number
  unfold windowClearResult at run
  refine ⟨fun outside => ?_, fun inTable named => ?_, fun inTable free => ?_⟩
  · rw [if_pos (Nat.succ_le_of_lt outside)] at run
    exact ⟨_, run, tablesRecord_done h .., tablesRecord_refused u _ s⟩
  · rw [if_neg (by omega), if_pos named] at run
    exact ⟨_, run, tablesRecord_done h .., tablesRecord_refused u _ s⟩
  · rw [if_neg (by omega), if_neg (not_not.mpr free)] at run
    exact ⟨_, run, tablesRecord_setWindow h length inTable free none _⟩

/-- The bytes of an ORDER_SET are a permutation of 0 to 15 where they are at most 15 and differ (R68). -/
theorem isOrder_map_toNat {values : List Byte} (length : values.length = 16) :
    isOrder (values.map BitVec.toNat) = true ↔ (∀ v ∈ values, v.toNat ≤ 15) ∧ values.Nodup := by
  have nodup : (values.map BitVec.toNat).Nodup ↔ values.Nodup := List.nodup_map_iff BitVec.toNat_injective
  simp [isOrder, length, nodup, Nat.lt_succ_iff]

/-- ORDER_SET by Table 26: which table and which report it comes to. -/
theorem exec_orderSet {u : Setup} {s : State} (h : s.readingControl u) (tag : Word) (values : List Byte) :
    exec (.orderSet tag values) s = .next (
      if isOrder (values.map BitVec.toNat) = false then s.tablesRecord u s.cutter.windows s.cutter.order
        { kind := 0x04, tag := tag, status := .badField, detail := .orderPermutation }
      else if s.contextsFree = false then s.tablesRecord u s.cutter.windows s.cutter.order
        { kind := 0x04, tag := tag, status := .busy }
      else s.tablesRecord u s.cutter.windows (values.map BitVec.toNat) { kind := 0x04, tag := tag, status := .done }) := by
  show Host.Outcome.next (s.takeRecord _) = _
  rw [takeRecord_recordTaken h]
  refine congrArg _ (if_congr (by simp) rfl (if_congr ?_ rfl rfl))
  rw [Bool.not_eq_true']
  rfl

theorem contextsFree_iff (s : State) : s.contextsFree = true ↔ s.seq.ctx0 = none ∧ s.seq.ctx1 = none := by
  simp [State.contextsFree]

/-- Settles O28, by the cases of Table 26. -/
theorem orderSetFollowsTable26 : Obligations.OrderSetFollowsTable26 := by
  unfold Obligations.OrderSetFollowsTable26
  intro u tag values s h length
  have run := exec_orderSet h tag values
  have order := isOrder_map_toNat length
  have free := contextsFree_iff s
  refine ⟨fun bad => ?_, fun small distinct busy => ?_, fun small distinct free0 free1 => ?_⟩
  · rw [if_pos (Bool.eq_false_iff.mpr (order.not.mpr bad))] at run
    exact ⟨_, run, tablesRecord_done h .., tablesRecord_refused u _ s⟩
  · have notFree : s.contextsFree = false := Bool.eq_false_iff.mpr (free.not.mpr (by tauto))
    rw [order.mpr ⟨small, distinct⟩, if_neg (by decide), if_pos notFree] at run
    exact ⟨_, run, tablesRecord_done h .., tablesRecord_refused u _ s⟩
  · rw [order.mpr ⟨small, distinct⟩, free.mpr ⟨free0, free1⟩, if_neg (by decide), if_neg (by decide)] at run
    exact ⟨_, run, tablesRecord_done h .., tablesRecord_order .., tablesRecord_order_frame u _ _ s⟩

end Sys2Proof.Machine
end

section
/-! SUPPORT for O52. The kept offsets of a window in one form for both kinds: with g neighbours kept together, 2 in a MOSAIC
window and 1 in another, an offset is kept where it is below g within its g · skip, and the output offsets and the kept
offsets are the two ways of one order-preserving correspondence. -/

set_option Elab.async false

namespace Sys2Proof.Machine

open Sys2Proof

/-! ## Kept offsets and output offsets (R63, R64) -/

/-- How many neighbouring offsets are kept together: the two of a colour pair in a MOSAIC window, one in another. -/
def groupSize (mosaic : Bool) : Nat := if mosaic then 2 else 1

theorem groupSize_pos (mosaic : Bool) : 0 < groupSize mosaic := by cases mosaic <;> decide

/-- The offset that goes to an output offset: the other way of `outputOffset`. -/
def sourceOffset (mosaic : Bool) (skip i : Nat) : Nat :=
  groupSize mosaic * skip * (i / groupSize mosaic) + i % groupSize mosaic

theorem keepsOffset_iff (mosaic : Bool) (skip r : Nat) :
    keepsOffset mosaic skip r = true ↔ r % (groupSize mosaic * skip) < groupSize mosaic := by
  cases mosaic <;> simp [keepsOffset, groupSize]

theorem outputOffset_eq (mosaic : Bool) (skip r : Nat) :
    outputOffset mosaic skip r = groupSize mosaic * (r / (groupSize mosaic * skip)) + r % groupSize mosaic := by
  cases mosaic <;> simp [outputOffset, groupSize, Nat.mod_one]

theorem skipStep_eq (mosaic : Bool) (skip : Nat) : skipStep mosaic skip = groupSize mosaic * skip := by
  cases mosaic <;> simp [skipStep, groupSize]

section Correspondence

variable {mosaic : Bool} {skip : Nat}

theorem groupSize_le (positive : 0 < skip) : groupSize mosaic ≤ groupSize mosaic * skip :=
  Nat.le_mul_of_pos_right _ positive

theorem keepsOffset_sourceOffset (positive : 0 < skip) (i : Nat) :
    keepsOffset mosaic skip (sourceOffset mosaic skip i) = true := by
  have inGroup : i % groupSize mosaic < groupSize mosaic := Nat.mod_lt _ (groupSize_pos mosaic)
  rw [keepsOffset_iff, sourceOffset, Nat.mul_add_mod,
    Nat.mod_eq_of_lt (inGroup.trans_le (groupSize_le positive))]
  exact inGroup

theorem outputOffset_sourceOffset (positive : 0 < skip) (i : Nat) :
    outputOffset mosaic skip (sourceOffset mosaic skip i) = i := by
  have inStep : i % groupSize mosaic < groupSize mosaic * skip :=
    (Nat.mod_lt _ (groupSize_pos mosaic)).trans_le (groupSize_le positive)
  have group : sourceOffset mosaic skip i / (groupSize mosaic * skip) = i / groupSize mosaic := by
    rw [sourceOffset, Nat.mul_add_div (by omega), Nat.div_eq_of_lt inStep, Nat.add_zero]
  have place : sourceOffset mosaic skip i % groupSize mosaic = i % groupSize mosaic := by
    rw [sourceOffset, Nat.mul_assoc, Nat.mul_add_mod, Nat.mod_mod]
  rw [outputOffset_eq, group, place, Nat.div_add_mod]

theorem sourceOffset_outputOffset {r : Nat} (kept : keepsOffset mosaic skip r = true) :
    sourceOffset mosaic skip (outputOffset mosaic skip r) = r := by
  rw [keepsOffset_iff] at kept
  have place : r % groupSize mosaic = r % (groupSize mosaic * skip) := by
    rw [← Nat.mod_mod_of_dvd r (Nat.dvd_mul_right (groupSize mosaic) skip), Nat.mod_eq_of_lt kept]
  rw [outputOffset_eq, place, sourceOffset, Nat.mul_add_div (groupSize_pos mosaic), Nat.div_eq_of_lt kept, Nat.add_zero,
    Nat.mul_add_mod, Nat.mod_eq_of_lt kept, Nat.div_add_mod]

theorem sourceOffset_strictMono (positive : 0 < skip) : StrictMono (sourceOffset mosaic skip) := by
  intro i j less
  rcases (Nat.div_le_div_right less.le : i / groupSize mosaic ≤ j / groupSize mosaic).eq_or_lt with same | before
  · have place : i % groupSize mosaic < j % groupSize mosaic := by
      have hi := Nat.div_add_mod i (groupSize mosaic)
      have hj := Nat.div_add_mod j (groupSize mosaic)
      rw [same] at hi
      omega
    simpa [sourceOffset, same] using place
  · calc sourceOffset mosaic skip i
        < groupSize mosaic * skip * (i / groupSize mosaic) + groupSize mosaic * skip :=
          Nat.add_lt_add_left ((Nat.mod_lt _ (groupSize_pos mosaic)).trans_le (groupSize_le positive)) _
      _ = groupSize mosaic * skip * (i / groupSize mosaic + 1) := rfl
      _ ≤ groupSize mosaic * skip * (j / groupSize mosaic) := Nat.mul_le_mul_left _ before
      _ ≤ sourceOffset mosaic skip j := Nat.le_add_right _ _

/-- Kept offsets stand in the output in their order. -/
theorem outputOffset_lt_iff (positive : 0 < skip) {a b : Nat} (ha : keepsOffset mosaic skip a = true)
    (hb : keepsOffset mosaic skip b = true) : outputOffset mosaic skip a < outputOffset mosaic skip b ↔ a < b := by
  rw [← (sourceOffset_strictMono positive).lt_iff_lt, sourceOffset_outputOffset ha, sourceOffset_outputOffset hb]

/-- The first offset past a size that is a multiple of the step is that of the first output offset past the output size. -/
theorem sourceOffset_div {size : Nat} (positive : 0 < skip) (multiple : groupSize mosaic * skip ∣ size) :
    sourceOffset mosaic skip (size / skip) = size := by
  obtain ⟨steps, rfl⟩ := multiple
  have groups : groupSize mosaic * skip * steps / skip = groupSize mosaic * steps := by
    rw [Nat.mul_right_comm, Nat.mul_div_cancel _ positive]
  rw [groups, sourceOffset, Nat.mul_div_cancel_left _ (groupSize_pos mosaic), Nat.mul_mod_right, Nat.add_zero]

theorem sourceOffset_lt_iff {size : Nat} (positive : 0 < skip) (multiple : groupSize mosaic * skip ∣ size) (i : Nat) :
    sourceOffset mosaic skip i < size ↔ i < size / skip := by
  simpa only [sourceOffset_div positive multiple] using
    (sourceOffset_strictMono (mosaic := mosaic) positive).lt_iff_lt (a := i) (b := size / skip)

theorem outputOffset_lt {size r : Nat} (positive : 0 < skip) (multiple : groupSize mosaic * skip ∣ size)
    (kept : keepsOffset mosaic skip r = true) (inside : r < size) : outputOffset mosaic skip r < size / skip := by
  rwa [← sourceOffset_lt_iff positive multiple, sourceOffset_outputOffset kept]

/-- The kept offsets below a size, listed by their output offsets. -/
theorem filter_keepsOffset {size : Nat} (positive : 0 < skip) (multiple : groupSize mosaic * skip ∣ size) :
    (List.range size).filter (keepsOffset mosaic skip) = (List.range (size / skip)).map (sourceOffset mosaic skip) := by
  have increasing : ((List.range (size / skip)).map (sourceOffset mosaic skip)).Pairwise (· < ·) :=
    List.pairwise_map.mpr (List.pairwise_lt_range.imp fun less => sourceOffset_strictMono positive less)
  refine (List.pairwise_lt_range.filter _).eq_of_mem_iff increasing fun r => ?_
  simp only [List.mem_filter, List.mem_range, List.mem_map]
  constructor
  · rintro ⟨inside, kept⟩
    exact ⟨_, outputOffset_lt positive multiple kept inside, sourceOffset_outputOffset kept⟩
  · rintro ⟨i, below, rfl⟩
    exact ⟨(sourceOffset_lt_iff positive multiple i).mpr below, keepsOffset_sourceOffset positive i⟩

end Correspondence

/-! ## A window that Table 22 accepts -/

/-- What Table 22 asks of the skips of an accepted window: none is 0, and width and height are multiples of their steps. -/
theorem skips_of_accepted {u : Setup} {windows : List WindowEntry} {n : Nat} {w : WindowDef}
    (accepted : firstFailed (windowChecks u windows n w) = none) :
    (0 < w.skipX.toNat ∧ groupSize w.mosaic * w.skipX.toNat ∣ w.width.toNat) ∧
      0 < w.skipY.toNat ∧ groupSize w.mosaic * w.skipY.toNat ∣ w.height.toNat := by
  simp only [windowChecks, firstFailed_cons_eq_none] at accepted
  obtain ⟨-, -, -, ⟨skipX, skipY⟩, ⟨width, height⟩, -⟩ := accepted
  have positive : ∀ {k : Nat}, k ∈ [1, 2, 4] → 0 < k := fun {k} h => by
    simp only [List.mem_cons, List.not_mem_nil, or_false] at h
    omega
  have stepX : skipStep w.mosaic w.skipX.toNat ∣ w.width.toNat := width
  have stepY : skipStep w.mosaic w.skipY.toNat ∣ w.height.toNat := height
  rw [skipStep_eq] at stepX stepY
  exact ⟨⟨positive skipX, stepX⟩, positive skipY, stepY⟩

theorem mem_keptColumns (w : WindowDef) (column : Nat) :
    column ∈ w.keptColumns ↔ w.x.toNat ≤ column ∧ column - w.x.toNat < w.width.toNat ∧
      keepsOffset w.mosaic w.skipX.toNat (column - w.x.toNat) = true := by
  simp only [WindowDef.keptColumns, List.mem_map, List.mem_filter, List.mem_range]
  constructor
  · rintro ⟨r, ⟨inside, kept⟩, rfl⟩
    rw [Nat.add_sub_cancel_left]
    exact ⟨Nat.le_add_right _ _, inside, kept⟩
  · rintro ⟨left, inside, kept⟩
    exact ⟨_, ⟨inside, kept⟩, Nat.add_sub_cancel' left⟩

/-- The kept columns of a window whose skip fits its width, listed by their output columns. -/
theorem keptColumns_eq {w : WindowDef} (positive : 0 < w.skipX.toNat)
    (multiple : groupSize w.mosaic * w.skipX.toNat ∣ w.width.toNat) :
    w.keptColumns = (List.range w.outWidth).map fun i => w.x.toNat + sourceOffset w.mosaic w.skipX.toNat i := by
  rw [WindowDef.keptColumns, filter_keepsOffset positive multiple, List.map_map]
  rfl

theorem keepsLine_iff (w : WindowDef) (line : Nat) :
    w.keepsLine line = true ↔ w.y.toNat ≤ line ∧ line - w.y.toNat < w.height.toNat ∧
      keepsOffset w.mosaic w.skipY.toNat (line - w.y.toNat) = true := by
  simp only [WindowDef.keepsLine, Bool.and_eq_true, decide_eq_true_eq, and_assoc]

theorem keepsOffset_cases (mosaic : Bool) (skip r : Nat) :
    keepsOffset mosaic skip r = true ↔ if mosaic then r % (2 * skip) < 2 else r % skip = 0 := by
  cases mosaic <;> simp [keepsOffset]

/-- Settles O52: columns by the list of their output columns (`keptColumns_eq`), lines by the order of their output rows
(`outputOffset_lt_iff`). -/
theorem keptColumnsFillTheOutput : Obligations.KeptColumnsFillTheOutput := by
  unfold Obligations.KeptColumnsFillTheOutput
  intro u windows n w accepted
  obtain ⟨⟨positiveX, multipleX⟩, positiveY, multipleY⟩ := skips_of_accepted accepted
  have columns := keptColumns_eq positiveX multipleX
  refine ⟨fun column => ?members, ?count, ?increasing, fun i column at_ => ?places, fun line => ?lines,
    fun line kept => ?rows, fun a b keptA keptB less => ?order⟩
  case members => rw [mem_keptColumns, keepsOffset_cases]
  case count => simp only [columns, List.length_map, List.length_range, WindowDef.outWidth]
  case increasing =>
    rw [columns, List.pairwise_map]
    exact List.pairwise_lt_range.imp fun less => Nat.add_lt_add_left (sourceOffset_strictMono positiveX less) _
  case places =>
    rw [columns, List.getElem?_map, Option.map_eq_some_iff] at at_
    obtain ⟨j, inRange, rfl⟩ := at_
    obtain ⟨-, rfl⟩ := List.getElem?_eq_some_iff.mp inRange
    rw [Nat.add_sub_cancel_left, List.getElem_range]
    exact (outputOffset_sourceOffset positiveX i).symm
  case lines => rw [keepsLine_iff, keepsOffset_cases]
  case rows =>
    obtain ⟨-, inside, kept⟩ := (keepsLine_iff w line).mp kept
    exact ⟨outputOffset_lt positiveY multipleY kept inside, rfl⟩
  case order =>
    obtain ⟨above, -, keptA⟩ := (keepsLine_iff w a).mp keptA
    obtain ⟨-, -, keptB⟩ := (keepsLine_iff w b).mp keptB
    exact (outputOffset_lt_iff positiveY keptA keptB).mpr (by omega)

end Sys2Proof.Machine
end

section
/-! SUPPORT for O45. What an offer of a slice does, one equation per case of Table 40, and the test for room over a store
within its bound as an inequality between sums. -/

set_option Elab.async false

namespace Sys2Proof.Machine

open Sys2Proof

theorem setInHand_frame (s : State) (slices : List Slice) :
    unchangedBut [.inHand] s { s with cutter := { s.cutter with inHand := slices } } := by
  intro p hp
  cases p
  case inHand => exact absurd (by decide) hp
  all_goals rfl

theorem setStore_frame (s : State) (store : OutputStore) : unchangedBut [.store] s { s with store := store } := by
  intro p hp
  cases p
  case store => exact absurd (by decide) hp
  all_goals rfl

/-- The free space is a difference of naturals: without the bound on the store it says less than the sum does (R100). -/
theorem freeSpace_lt_iff {s : State} (bounded : s.listsBounded) (size : Nat) :
    s.freeSpace < size ↔ 131072 < (s.store.slices.map Slice.size).sum + size := by
  obtain ⟨-, -, -, -, -, store⟩ := bounded
  rw [State.freeSpace, Config.storeBytes]
  omega

/-! ## The cases of Table 40 -/

section Offer

variable {s : State} {sl : Slice} {f : Frame} (frame : s.ctx sl.ctx = some f)
include frame

theorem offerSlice_of_overrun (overrun : f.flags.overrun = true) : s.offerSlice sl = s := by
  simp only [State.offerSlice, frame, overrun, if_true]

theorem offerSlice_of_noRoom (clear : f.flags.overrun = false) (noRoom : s.freeSpace < sl.size) :
    s.offerSlice sl = s.updCtx sl.ctx fun f => { f with flags := { f.flags with overrun := true } } := by
  simp only [State.offerSlice, frame, clear, Bool.false_eq_true, if_false, if_pos noRoom]

theorem offerSlice_of_room (clear : f.flags.overrun = false) (room : ¬ s.freeSpace < sl.size) :
    s.offerSlice sl = { s with store := { s.store with slices := s.store.slices ++ [sl] } } := by
  simp only [State.offerSlice, frame, clear, Bool.false_eq_true, if_false, if_neg room]

end Offer

/-- An offer changes the contexts or the store, whichever case holds. -/
theorem offerSlice_frame (sl : Slice) (s : State) : unchangedBut [.contexts, .store] s (s.offerSlice sl) := by
  unfold State.offerSlice
  split
  · exact .refl _ s
  · exact .ite (.refl _ s) (.ite ((updCtx_frame _ _ s).widen _) ((setStore_frame s _).widen _))

theorem exec_sliceOffer {s : State} {sl : Slice} {rest : List Slice} (inHand : s.cutter.inHand = sl :: rest) :
    exec .sliceOffer s = .next ({ s with cutter := { s.cutter with inHand := rest } }.offerSlice sl) := by
  change execSliceOffer s = _
  rw [execSliceOffer, inHand]

/-- Settles O45: the slice leaves the list in hand, which touches neither contexts nor store, and is then offered by the
equation of its case. -/
theorem slicesAreAdmitted : Obligations.SlicesAreAdmitted := by
  unfold Obligations.SlicesAreAdmitted
  intro sl rest f s bounded inHand frame
  have taken := setInHand_frame s rest
  have room := freeSpace_lt_iff bounded sl.size
  have ctx := ctx_of_contexts taken
  have frame' := (ctx sl.ctx).trans frame
  refine ⟨_, exec_sliceOffer inHand, (offerSlice_frame sl _).get .inHand, fun overrun => ?dropped,
    fun clear noRoom => ?overruns, fun clear fits => ?admitted⟩
  case dropped =>
    rw [offerSlice_of_overrun frame' overrun]
    exact taken
  case overruns =>
    rw [offerSlice_of_noRoom frame' clear (room.mpr noRoom)]
    exact ⟨updCtx_ctx_of_ctx frame' _, (updCtx_ctx_other _ _ _).trans (ctx _),
      (taken.widen _).trans ((updCtx_frame _ _ _).widen _)⟩
  case admitted =>
    rw [offerSlice_of_room frame' clear fun noRoom => Nat.not_lt.mpr fits (room.mp noRoom)]
    exact ⟨rfl, (taken.widen _).trans ((setStore_frame _ _).widen _)⟩

end Sys2Proof.Machine
end

section
/-! SUPPORT for the invariants O55 to O57, O59 and O60. What a step can do, said once: `Change` lists the changes of the state
of which every command is made, each with the pieces it touches and with what its rule asks before it. An invariant that
every change keeps is kept by every step (`Sustained.step`). -/

set_option Elab.async false

namespace Sys2Proof.Machine

open Sys2Proof

/-! ## What a change may rest on -/

/-- Every piece of the state. -/
def allParts : List Part :=
  [.time, .freeCount, .pending, .partState, .enable, .halt, .setupAddr, .msi, .line, .issued, .ctlRing, .capRing, .bufRing,
    .tails, .setup, .setupRead, .engine, .queue, .stop, .interval, .flushMark, .capCredit, .contexts, .pointer, .latch,
    .missed, .lines, .trigger, .receiver, .stray, .windows, .order, .inHand, .store, .cache, .power, .replay, .port, .waits,
    .mirror, .staged, .flush, .generation, .slots, .cplHead, .coalescing, .cause, .mask]

theorem allParts_frame (s t : State) : unchangedBut allParts s t := fun p hp => absurd (by cases p <;> decide) hp

/-- The pieces that none of the invariants looks at. -/
def unseenParts : List Part :=
  [.time, .freeCount, .pending, .enable, .halt, .setupAddr, .issued, .tails, .stop, .interval, .flushMark, .pointer, .latch,
    .missed, .lines, .receiver, .stray, .inHand, .coalescing]

/-- The engine stands as a control record found it, read in a state of `K` and in the part state of now. -/
def InRecord (K : State → Prop) (s : State) : Prop :=
  ∃ u, K u ∧ u.ring.ctlRead.isSome = true ∧ s.engine = { u.engine with mode := .executing } ∧ s.link.part = u.link.part

theorem InRecord.of_unchanged {K : State → Prop} {ps : List Part} {s t : State} (h : InRecord K s)
    (frame : unchangedBut ps s t) (engine : ps.contains .engine = false := by decide)
    (part : ps.contains .partState = false := by decide) : InRecord K t := by
  obtain ⟨u, hu, read, he, hp⟩ := h
  exact ⟨u, hu, read, (frame.get .engine engine).trans he, (frame.get .partState part).trans hp⟩

/-- The frame in hand is that of a context of a state of `K` that waits for a buffer, has been granted its credit, or has
been granted its return (R94 to R96). -/
def MayServe (K : State → Prop) (f : Frame) : Prop :=
  ∃ u c g, K u ∧ u.ctx c = some g ∧ f.phase = g.phase ∧ f.creditHeld = true ∧
    (g.returnAsked = true ∧ f.returnAsked = false ∨
      g.phase = .reserving ∧ f.returnAsked = g.returnAsked ∧ ¬ (g.returnAsked = true ∧ g.creditHeld = true))

/-- The frame is in a state that holds flushes back (R116). -/
def Frame.blocksFlush (f : Frame) : Bool :=
  decide (f.phase = .waitStart) || decide (f.phase = .lead) || decide (f.phase = .exposing) || decide (f.phase = .readout)

/-- A frame goes on as frame `g`: with its credit, slots and assignments, with no new request for a return, and into a state
that holds flushes back only from one or while no flush is in progress (R33, R116). -/
structure Frame.Goes (f g : Frame) (flush : Option Flush) : Prop where
  slots : g.slots = f.slots
  credit : g.creditHeld = f.creditHeld
  assignments : g.assignments.length = f.assignments.length
  asked : g.returnAsked = true → f.returnAsked = true ∧ (g.phase = f.phase ∨ f.phase ≠ .reserving)
  blocks : g.blocksFlush = true → f.blocksFlush = true ∨ flush = none

/-- A replay is under way and may use the port: it waits for a free one, it holds it, or the end of a drain took the port
from it. `waits` says whether it goes on waiting (R110, R125; log entry 30). -/
def State.replayMayWrite (s : State) (waits : Bool) : Prop :=
  (s.sensor.port = none ∧ s.sensor.replayWaits = true ∧ waits = false) ∨
    (s.replayHoldsPort ∧ waits = s.sensor.replayWaits) ∨ (s.replayStands = true ∧ waits = s.sensor.replayWaits)

/-! ## The states that changes lead to -/

/-- A valid Setup Block is held and the part state follows Enable, before the blocks test their conditions (R149). -/
def State.setupTaken (u : Setup) (p : PartState) (s : State) : State :=
  { s with
    ring :=
      { s.ring with
        setup := some u
        setupRead := none
        ctlTail := clampTail u.control.size s.ring.ctlTail
        capTail := clampTail u.capture.size s.ring.capTail
        bufTail := clampTail u.buffer.size s.ring.bufTail }
    link := { s.link with part := p } }

/-- A capture record has become an entry of the queue, with the credit granted for it (R4, R8). -/
def State.joinQueue (u : Setup) (data : List Byte) (s : State) : State :=
  let e := s.entryOf u data
  let t := (s.advanceRing .capture).clearMark
  { t with
    sched := { t.sched with queue := t.sched.queue ++ [e], credit := .none }
    cutter :=
      { t.cutter with
        windows := countRefs ((e.request.map CaptureRequest.windows).getD []) (· + 1) t.cutter.windows } }

/-- A buffer entry has joined the cache (R93). -/
def State.joinCache (e : CacheEntry) (s : State) : State :=
  let t := s.advanceRing .buffer
  { t with bufs := { t.bufs with cache := t.bufs.cache ++ [e] } }

/-- The head has left the queue with its REQUEST_END, its windows unpinned (R18). -/
def State.dequeue (e : Entry) (rest : List Entry) (s : State) : State :=
  State.handOver (.requestEnd (requestReport e s.sched.endCause s.seq.missed))
    { s with
      sched := { s.sched with queue := rest }
      seq := { s.seq with missed := 0 }
      cutter :=
        { s.cutter with
          windows := countRefs ((e.request.map CaptureRequest.windows).getD []) (· - 1) s.cutter.windows } }

/-- The engine has posted a record's completion and is in IDLE (R138). -/
def State.recordPosted (r : ControlResult) (s : State) : State :=
  { s.handOver (.control r) with engine := { mode := .idle, credit := .none, job := none } }

/-- A staged entry has left the list with its completion (R117). -/
def State.popStaged (rest : List Staged) (r : ControlResult) (s : State) : State :=
  { s with sensor := { s.sensor with staged := rest } }.handOver (.control r)

/-- A STAGED write has joined the list, and the engine's credit moved to it (R115). -/
def State.joinStaged (e : Staged) (s : State) : State :=
  { s with
    sensor := { s.sensor with staged := s.sensor.staged ++ [e] }
    engine := { mode := .idle, credit := .none, job := none } }

/-- The removal of power behind its notice (R126 steps 2 to 5). -/
def State.cutPower (s : State) : State :=
  let s := { s with sensor := { s.sensor with settle := none } }.cutPort.forgetReplay
  { s with
    sensor := { s.sensor with mirror := mirrorStale s.sensor.mirror, enableOut := false, power := .off } }

/-- The WRITE of a replay has ended: the mirror and the counts (R125). -/
def State.replayCounted (ok : Bool) (address value : Half) (s : State) : State :=
  if ok then
    let s := s.recordWrite address value
    { s with sensor := { s.sensor with replayed := s.sensor.replayed + 1 } }
  else
    { s with
      sensor := { s.sensor with mirror := mirrorErase address.toNat s.sensor.mirror, failed := s.sensor.failed + 1 } }

/-- The replay writes the STALE entry `p` (R125). -/
def State.replayWrites (p : Nat × MirrorEntry) (waits : Bool) (s : State) : State :=
  State.startTransaction .replay (.write (BitVec.ofNat 16 p.1) p.2.value)
    { s with sensor := { s.sensor with replayWaits := waits, replayPos := p.1 + 1 } }

/-- A drain has finished, before Enable is read (R177). -/
def State.drainLeft (s : State) : State :=
  { s.drainPort.enterDisabled with seq := { s.seq with latch := false, missed := 0 } }

/-! ## The changes -/

/-- The changes of which every command is made: the pieces that one touches, the state before it and the state after it. `K`
is what is known of earlier states. -/
inductive Change (K : State → Prop) : List Part → State → State → Prop where
  | unseen {s t} (h : unchangedBut unseenParts s t) : Change K unseenParts s t
  -- Completion Writer and registers
  | causes (s) (c m : Causes) : Change K [.cause, .mask, .line, .issued] s (s.setCauses c m)
  | messages (s) (b : Bool) :
      Change K [.msi, .line] s { s with link := { s.link with msi := b, line := !b && s.signalling } }
  | cplHead {s} (v : Word) (h : s.cplHeadInRange v.toNat = true) :
      Change K [.cplHead] s { s with cpl := { s.cpl with head := v } }
  -- fetching blocks
  | captureTest (s) : Change K [.capCredit, .capRing] s s.captureTest
  | engineTest (s) : Change K [.engine, .ctlRing] s s.engineTest
  | bufferTest (s) : Change K [.bufRing] s s.bufferTest
  | engineDrain (s) : Change K [.engine] s s.engineDrain
  -- part states
  | partReset (s) (keepConfig : Bool) (pin : Level) : Change K allParts s (s.partReset keepConfig pin)
  | enterHalted (s) (cause : HaltCause) (d : Detail) : Change K haltParts s (s.enterHalted cause d)
  | enterStarting {s} (h : s.link.part = .disabled) : Change K startingParts s s.enterStarting
  | leaveHalted {s} (h : s.link.part = .halted) : Change K [.partState, .tails] s s.enterDisabled
  | leaveDrain {s} (h : s.drained = true) :
      Change K [.partState, .tails, .latch, .missed, .port, .waits, .replay, .flush, .generation] s s.drainLeft
  | beginDrain {s} (h : s.link.part = .running) :
      Change K [.partState] s { s with link := { s.link with part := .draining } }
  | takeSetup {s} (u : Setup) (p : PartState) (read : s.ring.setupRead.isSome = true) (ok : setupCheck u = none)
      (h : p = .running ∨ p = .draining) : Change K [.setup, .setupRead, .tails, .partState] s (s.setupTaken u p)
  -- records read
  | takeRecord {s} (h : s.ring.ctlRead.isSome = true) :
      Change K [.ctlRing, .issued, .engine] s
        { s.advanceRing .control with engine := { (s.advanceRing .control).engine with mode := .executing } }
  | joinQueue {s} (u : Setup) (data : List Byte) (read : s.ring.capRead.isSome = true) (h : s.ring.setup = some u) :
      Change K [.capRing, .issued, .flushMark, .queue, .capCredit, .windows] s (s.joinQueue u data)
  | joinCache {s} (e : CacheEntry) (h : s.ring.bufRead.isSome = true) :
      Change K [.bufRing, .issued, .cache] s (s.joinCache e)
  -- control records
  | finish {s} (r : ControlResult) (h : InRecord K s ∨ s.engine.job.isSome = true) :
      Change K (.engine :: postParts) s (s.recordPosted r)
  | hold {s} (j : Job) (h : InRecord K s) (address : ∀ a, j.work.address = some a → a.toNat < 512) :
      Change K [.engine] s (s.hold j)
  | stage {s} (e : Staged) (h : InRecord K s) (address : e.address.toNat < 512) (room : s.sensor.staged.length < 32)
      (waiting : e.inProgress = false) : Change K [.staged, .engine] s (s.joinStaged e)
  | window (s) (n : Nat) (w : Option WindowDef) :
      Change K [.windows] s { s with cutter := { s.cutter with windows := setWindow n w s.cutter.windows } }
  | order (s) (o : List Nat) (h : isOrder o = true) :
      Change K [.order] s { s with cutter := { s.cutter with order := o } }
  -- credit and buffers
  | grantCapture {s} (asked : s.sched.credit = .asked) (h : 1 ≤ s.freeCredit) :
      Change K [.capCredit] s { s with sched := { s.sched with credit := .held } }
  | grantEngine {s} (asked : s.engine.credit = .asked) (h : 1 ≤ s.freeCredit) :
      Change K [.engine] s { s with engine := { s.engine with credit := .held } }
  | grantFrame {s c f} (n : Nat) (hf : s.ctx c = some f) (asked : frameRequest (some f) = some n) (h : n ≤ s.freeCredit)
      (frame : ¬ (f.returnAsked = true ∧ f.creditHeld = true)) :
      Change K [.contexts] s (s.setCtx c (some { f with creditHeld := true }))
  | returnEntry {s} (e : CacheEntry) (rest : List CacheEntry) (reason : ReturnReason) (hc : s.bufs.cache = e :: rest)
      (h : 1 ≤ s.freeCredit) :
      Change K (.cache :: postParts) s ({ s with bufs := { s.bufs with cache := rest } }.handOver (.bufferReturn e.tag reason))
  | serve (s) (as : List Assignment) :
      Change K [.cache] s { s with bufs := { s.bufs with cache := (serve as s.bufs.cache).2.1 } }
  -- frames and requests
  | goes {s c f} (g : Frame) (hf : s.ctx c = some f) (h : f.Goes g s.sensor.flush) :
      Change K [.contexts] s (s.setCtx c (some g))
  | served {s c f} (g : Frame) (hf : s.ctx c = some f) (h : MayServe K f)
      (hg : g = { f with phase := .gap } ∨ g = { f with returnAsked := true }) :
      Change K [.contexts] s (s.setCtx c (some g))
  | beginFrame {s} (e : Entry) (r : CaptureRequest) (h : s.frameToBegin = some (e, r)) :
      Change K [.contexts] s (s.setCtx s.seq.next (some (newFrame e.begun r.windows)))
  | postFrame {s} (c : CtxId) (e : Entry) (f : Frame) (h : s.frameToPost c = some (e, f)) :
      Change K (.contexts :: postParts) s ((s.handOver (.frame (frameReport e s.recv.stray f))).setCtx c none)
  | queue (s) (q : List Entry) (h : q.map Entry.form = s.sched.queue.map Entry.form) :
      Change K [.queue] s { s with sched := { s.sched with queue := q } }
  | dequeue {s} (e : Entry) (rest : List Entry) (ends : s.requestEnds = true) (h : s.sched.queue = e :: rest) :
      Change K (.queue :: .missed :: .windows :: postParts) s (s.dequeue e rest)
  -- Output Store
  | accept {s} (sl : Slice) (h : ¬ s.freeSpace < sl.size) :
      Change K [.store] s { s with store := { s.store with slices := s.store.slices ++ [sl] } }
  | written {s} (sl : Slice) (rest : List Slice) (h : s.store.slices = sl :: rest) :
      Change K [.store] s { s with store := { s.store with slices := rest } }
  -- Sensor Link
  | waits (s) (flush engine : Bool) :
      Change K [.waits] s { s with sensor := { s.sensor with flushWaits := flush, engineWaits := engine } }
  | startEngine {s} (j : Job) (op : PortOp) (free : s.sensor.port = none) (hj : s.engine.job = some j)
      (h : j.work.op = some op) : Change K [.port] s (s.startTransaction .engine op)
  | freePort {s} (t : Transaction) (h : s.sensor.port = some t)
      (owner : t.owner = .engine ∨ t.owner = .cleared ∨ ∃ a, t.op = .read a) : Change K [.port] s s.freePort
  | recordWrite (s) (a v : Half) (h : ∃ u t, K u ∧ u.sensor.port = some t ∧ t.op = .write a v) :
      Change K [.mirror] s (s.recordWrite a v)
  | endLeft {s} (t : Transaction) (g : Word) (h : s.sensor.port = some t) (owner : t.owner = .leftFlush g) :
      Change K [.generation, .port] s s.closeLeftFlush.freePort
  | beginFlush {s} (free : s.sensor.port = none) (h : s.flushCondition = true) (staged : s.sensor.staged ≠ []) :
      Change K [.staged, .flush, .port] s s.beginFlush
  | popStaged {s} (t : Transaction) (e : Staged) (rest : List Staged) (r : ControlResult) (h : s.sensor.port = some t)
      (owner : t.owner = .flush) (staged : s.sensor.staged = e :: rest) (writing : e.inProgress = true) :
      Change K (.staged :: postParts) s (s.popStaged rest r)
  | writeNext {s} (t : Transaction) (e : Staged) (rest : List Staged) (h : s.sensor.port = some t) (owner : t.owner = .flush)
      (staged : s.sensor.staged = e :: rest) : Change K [.staged, .flush, .port] s s.writeFront
  | endFlush {s} (t : Transaction) (h : s.sensor.port = some t) (owner : t.owner = .flush)
      (waiting : ∀ e, s.sensor.staged.head? = some e → e.inProgress = false) :
      Change K [.flush, .generation, .port] s s.closeFlush.freePort
  | discardWaiting (s) : Change K (.staged :: postParts) s s.discardWaiting
  | cutPower (s) : Change K (.mirror :: .power :: .replay :: cutPortParts) s s.cutPower
  | applyPower {s} (replay : Bool) (h : s.sensor.power = .off) : Change K [.mirror, .power, .replay] s (s.applyPower replay)
  | settleToReplay {s} (h : s.sensor.power = .settling) :
      Change K [.power, .waits] s
        { s with sensor := { s.sensor with settle := none, power := .replaying, replayWaits := true } }
  | settleToReady {s} (h : s.sensor.power = .settling) :
      Change K [.power, .replay] s
        { s with sensor :=
          { s.sensor with settle := none, power := .ready, replayPos := 0, replayed := 0, failed := 0 } }
  | replayCounted {s} (t : Transaction) (ok : Bool) (a v : Half) (h : s.sensor.port = some t) (owner : t.owner = .replay)
      (op : t.op = .write a v) : Change K [.mirror, .replay] s (s.replayCounted ok a v)
  | replayWrites {s} (p : Nat × MirrorEntry) (waits : Bool) (h : s.replayMayWrite waits)
      (stale : nextStale s.sensor.replayPos s.sensor.mirror = some p) :
      Change K [.waits, .replay, .port] s (s.replayWrites p waits)
  | replayEnds {s} (waits : Bool) (h : s.replayMayWrite waits) :
      Change K [.power, .waits, .replay, .port] s
        { s with sensor :=
          { s.sensor with
            power := .ready, port := none, replayWaits := waits, replayPos := 0, replayed := 0, failed := 0 } }
  -- TRIGGER
  | pinChanges (s) (level : Level) : Change K [.trigger] s (s.pinChanges level)
  | filtered (s) : Change K [.trigger] s { s with seq := { s.seq with trigger := s.seq.pin, hold := none } }

end Sys2Proof.Machine
end

section
/-! SUPPORT for O55 to O57, O59 and O60. Each change touches the pieces it names alone (`Change.unchanged`), and what is known of
earlier states may be weakened (`Change.mono`). -/

set_option Elab.async false

namespace Sys2Proof.Machine

open Sys2Proof

/-! ## Frames of the states that changes lead to -/

theorem setupTaken_frame (u : Setup) (p : PartState) (s : State) :
    unchangedBut [.setup, .setupRead, .tails, .partState] s (s.setupTaken u p) := by
  intro q hq
  cases q <;> first | rfl | exact absurd (by decide) hq

theorem clearMark_frame (s : State) : unchangedBut [.flushMark] s s.clearMark := by
  refine .ite ?_ (.refl _ _)
  intro p hp
  cases p <;> first | rfl | exact absurd (by decide) hp

theorem joinQueue_frame (u : Setup) (data : List Byte) (s : State) :
    unchangedBut [.capRing, .issued, .flushMark, .queue, .capCredit, .windows] s (s.joinQueue u data) := by
  refine ((advanceRing_frame .capture s).widen _).trans (((clearMark_frame _).widen _).trans ?_)
  intro p hp
  cases p <;> first | rfl | exact absurd (by decide) hp

theorem joinCache_frame (e : CacheEntry) (s : State) : unchangedBut [.bufRing, .issued, .cache] s (s.joinCache e) := by
  refine ((advanceRing_frame .buffer s).widen _).trans ?_
  intro p hp
  cases p <;> first | rfl | exact absurd (by decide) hp

theorem dequeue_frame (e : Entry) (rest : List Entry) (s : State) :
    unchangedBut (.queue :: .missed :: .windows :: postParts) s (s.dequeue e rest) := by
  refine .trans ?_ ((handOver_frame _ _).widen _)
  intro p hp
  cases p <;> first | rfl | exact absurd (by decide) hp

theorem recordPosted_frame (r : ControlResult) (s : State) : unchangedBut (.engine :: postParts) s (s.recordPosted r) := by
  refine ((handOver_frame (.control r) s).widen _).trans ?_
  intro p hp
  cases p <;> first | rfl | exact absurd (by decide) hp

theorem popStaged_frame (rest : List Staged) (r : ControlResult) (s : State) :
    unchangedBut (.staged :: postParts) s (s.popStaged rest r) := by
  refine .trans ?_ ((handOver_frame _ _).widen _)
  intro p hp
  cases p <;> first | rfl | exact absurd (by decide) hp

theorem cutPower_frame (s : State) :
    unchangedBut (.mirror :: .power :: .replay :: cutPortParts) s s.cutPower := by
  refine .trans (t := { s with sensor := { s.sensor with settle := none } }) ?_
    (((cutPort_frame _).widen _).trans (((forgetReplay_frame _).widen _).trans ?_))
  · intro p hp
    cases p <;> first | rfl | exact absurd (by decide) hp
  · intro p hp
    cases p <;> first | rfl | exact absurd (by decide) hp

theorem replayCounted_frame (ok : Bool) (a v : Half) (s : State) :
    unchangedBut [.mirror, .replay] s (s.replayCounted ok a v) := by
  cases ok <;> intro p hp <;> cases p <;> first | rfl | exact absurd (by decide) hp

/-- With nothing staged the end of a drain touches the Sensor Link and the part state alone (R177). -/
theorem drainLeft_eq {s : State} (h : s.drained = true) :
    s.drainLeft =
      { s with
        link := { s.link with part := .disabled }
        ring := { s.ring with ctlTail := 0, capTail := 0, bufTail := 0 }
        seq := { s.seq with latch := false, missed := 0 }
        sensor := s.drainedSensor } := by
  obtain ⟨-, -, -, -, -, -, staged, -⟩ := (drained_iff s).mp h
  rw [State.drainLeft, drainPort_eq s staged]
  rfl

theorem drainLeft_frame {s : State} (h : s.drained = true) :
    unchangedBut [.partState, .tails, .latch, .missed, .port, .waits, .replay, .flush, .generation] s s.drainLeft := by
  rw [drainLeft_eq h]
  intro p hp
  cases p <;> first | rfl | exact absurd (by decide) hp

/-! ## Every change -/

theorem Change.unchanged {K : State → Prop} {ps : List Part} {s t : State} (h : Change K ps s t) : unchangedBut ps s t := by
  cases h
  case unseen h => exact h
  case causes => exact setCauses_frame _ _ _
  case captureTest => exact captureTest_frame _
  case engineTest => exact engineTest_frame _
  case bufferTest => exact bufferTest_frame _
  case engineDrain => exact engineDrain_frame _
  case partReset => exact allParts_frame _ _
  case enterHalted => exact enterHalted_frame _ _ _
  case enterStarting => exact enterStarting_frame _
  case leaveHalted => exact enterDisabled_frame _
  case leaveDrain h => exact drainLeft_frame h
  case takeSetup => exact setupTaken_frame _ _ _
  case takeRecord =>
    refine ((advanceRing_frame .control s).widen _).trans ?_
    intro p hp
    cases p <;> first | rfl | exact absurd (by decide) hp
  case joinQueue => exact joinQueue_frame _ _ _
  case joinCache => exact joinCache_frame _ _
  case finish => exact recordPosted_frame _ _
  case returnEntry =>
    refine .trans ?_ ((handOver_frame _ _).widen _)
    intro p hp
    cases p <;> first | rfl | exact absurd (by decide) hp
  case grantFrame => exact setCtx_frame _ _ _
  case goes => exact setCtx_frame _ _ _
  case served => exact setCtx_frame _ _ _
  case beginFrame => exact setCtx_frame _ _ _
  case postFrame => exact ((handOver_frame _ _).widen _).trans ((setCtx_frame _ _ _).widen _)
  case dequeue => exact dequeue_frame _ _ _
  case endLeft => exact ((closeLeftFlush_frame s).widen _).trans ((freePort_frame _).widen _)
  case beginFlush => exact beginFlush_frame _
  case popStaged => exact popStaged_frame _ _ _
  case writeNext => exact writeFront_frame _
  case endFlush => exact ((closeFlush_frame s).widen _).trans ((freePort_frame _).widen _)
  case discardWaiting => exact discardWaiting_frame _
  case cutPower => exact cutPower_frame _
  case replayCounted => exact replayCounted_frame _ _ _ _
  case pinChanges => exact pinChanges_frame _ _
  all_goals
    intro p hp
    cases p <;> first | rfl | exact absurd (by decide) hp

theorem InRecord.mono {K L : State → Prop} (hKL : ∀ u, K u → L u) {s : State} (h : InRecord K s) : InRecord L s := by
  obtain ⟨u, hu, rest⟩ := h
  exact ⟨u, hKL u hu, rest⟩

theorem MayServe.mono {K L : State → Prop} (hKL : ∀ u, K u → L u) {f : Frame} (h : MayServe K f) : MayServe L f := by
  obtain ⟨u, c, g, hu, rest⟩ := h
  exact ⟨u, c, g, hKL u hu, rest⟩

theorem Change.mono {K L : State → Prop} (hKL : ∀ u, K u → L u) {ps : List Part} {s t : State} :
    Change K ps s t → Change L ps s t
  | .unseen h => .unseen h
  | .causes s c m => .causes s c m
  | .messages s b => .messages s b
  | .cplHead v h => .cplHead v h
  | .captureTest s => .captureTest s
  | .engineTest s => .engineTest s
  | .bufferTest s => .bufferTest s
  | .engineDrain s => .engineDrain s
  | .partReset s keepConfig pin => .partReset s keepConfig pin
  | .enterHalted s cause d => .enterHalted s cause d
  | .enterStarting h => .enterStarting h
  | .leaveHalted h => .leaveHalted h
  | .leaveDrain h => .leaveDrain h
  | .beginDrain h => .beginDrain h
  | .takeSetup u p read ok h => .takeSetup u p read ok h
  | .takeRecord h => .takeRecord h
  | .joinQueue u data read h => .joinQueue u data read h
  | .joinCache e h => .joinCache e h
  | .finish r h => .finish r (h.imp_left (InRecord.mono hKL))
  | .hold j h address => .hold j (h.mono hKL) address
  | .stage e h address room waiting => .stage e (h.mono hKL) address room waiting
  | .window s n w => .window s n w
  | .order s o h => .order s o h
  | .grantCapture asked h => .grantCapture asked h
  | .grantEngine asked h => .grantEngine asked h
  | .grantFrame n hf asked h frame => .grantFrame n hf asked h frame
  | .returnEntry e rest reason hc h => .returnEntry e rest reason hc h
  | .serve s as => .serve s as
  | .goes g hf h => .goes g hf h
  | .served g hf h hg => .served g hf (h.mono hKL) hg
  | .beginFrame e r h => .beginFrame e r h
  | .postFrame c e f h => .postFrame c e f h
  | .queue s q h => .queue s q h
  | .dequeue e rest ends h => .dequeue e rest ends h
  | .accept sl h => .accept sl h
  | .written sl rest h => .written sl rest h
  | .waits s flush engine => .waits s flush engine
  | .startEngine j op free hj h => .startEngine j op free hj h
  | .freePort t h owner => .freePort t h owner
  | .recordWrite s a v ⟨u, t, hu, ht⟩ => .recordWrite s a v ⟨u, t, hKL u hu, ht⟩
  | .endLeft t g h owner => .endLeft t g h owner
  | .beginFlush free h staged => .beginFlush free h staged
  | .popStaged t e rest r h owner staged writing => .popStaged t e rest r h owner staged writing
  | .writeNext t e rest h owner staged => .writeNext t e rest h owner staged
  | .endFlush t h owner waiting => .endFlush t h owner waiting
  | .discardWaiting s => .discardWaiting s
  | .cutPower s => .cutPower s
  | .applyPower replay h => .applyPower replay h
  | .settleToReplay h => .settleToReplay h
  | .settleToReady h => .settleToReady h
  | .replayCounted t ok a v h owner op => .replayCounted t ok a v h owner op
  | .replayWrites p w h stale => .replayWrites p w h stale
  | .replayEnds w h => .replayEnds w h
  | .pinChanges s level => .pinChanges s level
  | .filtered s => .filtered s

/-! ## Invariants that every change keeps -/

/-- Every change keeps the invariant. -/
structure Sustained (K : State → Prop) : Prop where
  keeps : ∀ {ps : List Part} {s t : State}, K s → Change K ps s t → K t

/-- An invariant that every change keeps where another one holds, which every change keeps too. -/
theorem Sustained.and {K P : State → Prop} (hK : Sustained K)
    (hP : ∀ {ps s t}, K s → P s → Change (fun u => K u ∧ P u) ps s t → P t) : Sustained fun u => K u ∧ P u :=
  ⟨fun hs h => ⟨hK.keeps hs.1 (h.mono fun _ => And.left), hP hs.1 hs.2 h⟩⟩

theorem Sustained.unchanged {K : State → Prop} (h : Sustained K) {s t : State} (hs : K s) {ps : List Part}
    (frame : unchangedBut ps s t) (hps : ps.all (fun p => unseenParts.contains p) = true := by decide) : K t :=
  h.keeps hs (.unseen (frame.widen _ hps))

end Sys2Proof.Machine
end

section
/-! SUPPORT for O55 to O57, O59 and O60. The shared operations of the Frame Contexts and of the Capture Queue, made of
changes: an invariant that every change keeps is kept by each (chapters 1 and 2). -/

set_option Elab.async false

namespace Sys2Proof.Machine

open Sys2Proof

/-! ## One frame -/

/-- The frame is in a state that holds flushes back and in none that asks for a return. -/
theorem Frame.Goes.of_blocks {f g : Frame} {flush : Option Flush} (hf : f.blocksFlush = true) (slots : g.slots = f.slots)
    (credit : g.creditHeld = f.creditHeld) (assignments : g.assignments.length = f.assignments.length)
    (asked : g.returnAsked = f.returnAsked) : f.Goes g flush where
  slots := slots
  credit := credit
  assignments := assignments
  asked hg := ⟨asked ▸ hg, .inr fun hp => by simp [Frame.blocksFlush, hp] at hf⟩
  blocks _ := .inl hf

/-- The frame stays in its state. -/
theorem Frame.Goes.of_samePhase {f g : Frame} {flush : Option Flush} (phase : g.phase = f.phase) (slots : g.slots = f.slots)
    (credit : g.creditHeld = f.creditHeld) (assignments : g.assignments.length = f.assignments.length)
    (asked : g.returnAsked = f.returnAsked) : f.Goes g flush where
  slots := slots
  credit := credit
  assignments := assignments
  asked hg := ⟨asked ▸ hg, .inl phase⟩
  blocks hg := .inl (by simpa [Frame.blocksFlush, phase] using hg)

theorem Frame.Goes.close (o : FrameOutcome) (f : Frame) (flush : Option Flush) : f.Goes (f.close o) flush where
  slots := rfl
  credit := rfl
  assignments := rfl
  asked hg := by simp [Frame.close] at hg
  blocks hg := by simp [Frame.close, Frame.blocksFlush] at hg

theorem blocksFlush_of_ctx {s : State} {c : CtxId} {f : Frame} (hf : s.ctx c = some f) :
    s.blocksFlush c = f.blocksFlush := by simp [State.blocksFlush, State.inPhase, hf, Frame.blocksFlush]

theorem Frame.blocksFlush_of_phase {f : Frame} {p : Phase} (h : f.phase = p)
    (hp : (p == .waitStart || p == .lead || p == .exposing || p == .readout) = true := by decide) :
    f.blocksFlush = true := by
  subst h
  simpa [Frame.blocksFlush] using hp

/-! ## Rules for an invariant that every change keeps -/

section
variable {K : State → Prop} (h : Sustained K) {s : State} (hs : K s)
include h hs

theorem Sustained.untouched {t : State} (frame : unchangedBut unseenParts s t := by
      intro p hp; cases p <;> first | rfl | exact absurd (by decide) hp) : K t :=
  h.keeps hs (.unseen frame)

theorem Sustained.raise (c : Causes) : K (s.raise c) := h.keeps hs (.causes s _ _)

theorem Sustained.captureTest : K s.captureTest := h.keeps hs (.captureTest s)

theorem Sustained.engineTest : K s.engineTest := h.keeps hs (.engineTest s)

theorem Sustained.bufferTest : K s.bufferTest := h.keeps hs (.bufferTest s)

/-! ## Changes to one frame -/

theorem Sustained.updCtx {c : CtxId} {g : Frame → Frame}
    (goes : ∀ f, s.ctx c = some f → f.Goes (g f) s.sensor.flush) : K (s.updCtx c g) := by
  cases hf : s.ctx c with
  | none => rwa [updCtx_free hf]
  | some f =>
    rw [updCtx_of_ctx hf]
    exact h.keeps hs (.goes _ hf (goes f hf))

/-- The frame's other fields change: those that no invariant looks at. -/
theorem Sustained.updCtx_same (c : CtxId) (g : Frame → Frame)
    (phase : ∀ f, (g f).phase = f.phase := by intros; rfl) (slots : ∀ f, (g f).slots = f.slots := by intros; rfl)
    (credit : ∀ f, (g f).creditHeld = f.creditHeld := by intros; rfl)
    (assignments : ∀ f, (g f).assignments.length = f.assignments.length := by intros; rfl)
    (asked : ∀ f, (g f).returnAsked = f.returnAsked := by intros; rfl) : K (s.updCtx c g) :=
  h.updCtx hs fun f _ => .of_samePhase (phase f) (slots f) (credit f) (assignments f) (asked f)

theorem Sustained.closeFrame (c : CtxId) (o : FrameOutcome) : K (s.closeFrame c o) := by
  cases hf : s.ctx c with
  | none => rwa [closeFrame_free hf]
  | some f =>
    rw [closeFrame_of_ctx hf]
    exact h.unchanged (h.keeps hs (.goes _ hf (.close o f _))) (noteClose_frame _ _)

theorem Sustained.enterExposing (r : CaptureRequest) {c : CtxId} (hc : s.blocksFlush c = true) :
    K (s.enterExposing r c) := by
  refine h.unchanged (h.updCtx hs fun f hf => ?_) (set_lines _ _ _)
  exact .of_blocks (blocksFlush_of_ctx hf ▸ hc) rfl rfl rfl rfl

theorem Sustained.startCondition (r : CaptureRequest) {c : CtxId} (hc : s.blocksFlush c = true) :
    K (s.startCondition r c) := by
  have stopped : K (s.updCtx c fun f => { f with trigTimer := none }) := h.updCtx_same hs c _
  have blocks : (s.updCtx c fun f => { f with trigTimer := none }).blocksFlush c = true := by
    cases hf : s.ctx c with
    | none => rwa [updCtx_free hf]
    | some f => rw [blocksFlush_of_ctx (updCtx_ctx_of_ctx hf _), ← hc, blocksFlush_of_ctx hf]; rfl
  unfold State.startCondition
  dsimp only
  split
  · refine h.unchanged (h.updCtx stopped fun f hf => ?_) (set_lines _ _ _)
    exact .of_blocks (blocksFlush_of_ctx hf ▸ blocks) rfl rfl rfl rfl
  · exact h.enterExposing stopped r blocks

theorem Sustained.enterReadout {c : CtxId} (hc : s.blocksFlush c = true) : K (s.enterReadout c) := by
  refine h.unchanged (h.updCtx hs fun f hf => ?_) (expect_frame c _)
  exact .of_blocks (blocksFlush_of_ctx hf ▸ hc) rfl rfl rfl rfl

omit h hs in
/-- A change that leaves the frames' states leaves what holds flushes back. -/
theorem blocksFlush_updCtx_same {c : CtxId} {g : Frame → Frame} (hc : s.blocksFlush c = true)
    (phase : ∀ f, (g f).phase = f.phase := by intros; rfl) : (s.updCtx c g).blocksFlush c = true := by
  cases hf : s.ctx c with
  | none => rwa [updCtx_free hf]
  | some f =>
    rw [blocksFlush_of_ctx (updCtx_ctx_of_ctx hf _), ← hc, blocksFlush_of_ctx hf, Frame.blocksFlush, phase]
    rfl

theorem Sustained.exposureEnd {c : CtxId} (hc : s.blocksFlush c = true) : K (s.exposureEnd c) := by
  have released : K s.releaseLines := h.unchanged hs (releaseLines_frame s)
  have still : s.releaseLines.blocksFlush c = true := by rw [← hc]; cases c <;> rfl
  exact h.enterReadout (h.updCtx_same released c _) (blocksFlush_updCtx_same still)

theorem Sustained.exposureWouldEnd {c : CtxId} (hc : s.blocksFlush c = true) : K (s.exposureWouldEnd c) := by
  unfold State.exposureWouldEnd
  split
  · exact h.updCtx_same hs c _
  · exact h.exposureEnd hs hc

/-! ## GAP and WAIT_START (R31 to R33) -/

theorem Sustained.updHead (g : Entry → Entry) (form : ∀ e, (g e).form = e.form := by intros; rfl) : K (s.updHead g) := by
  unfold State.updHead
  split
  · exact hs
  · rename_i e rest hq
    exact h.keeps hs (.queue s _ (by simp [hq, form]))

theorem Sustained.enterWaitStart (r : CaptureRequest) {c : CtxId} (hc : s.inPhase c .gap = true)
    (flush : s.sensor.flush = none) : K (s.enterWaitStart r c) := by
  obtain ⟨f, hf, phase⟩ := ctx_of_inPhase hc
  have moved : K (s.updCtx c (Frame.toWaitStart s.sensor.generation s.seq.missed)) := h.updCtx hs fun g hg =>
    { slots := rfl
      credit := rfl
      assignments := rfl
      asked := fun ha => ⟨ha, .inr (by rw [Option.some.inj (hg.symm.trans hf), phase]; simp)⟩
      blocks := fun _ => .inr flush }
  have begun : K (s.beginWaitStart c) := h.unchanged (h.updHead moved _) (set_missed _ 0)
  have ctx : ∀ b, State.ctx { s.beginWaitStart c with seq := { (s.beginWaitStart c).seq with latch := b } } c =
      some (f.toWaitStart s.sensor.generation s.seq.missed) := fun b => by
    have : State.ctx { s.beginWaitStart c with seq := { (s.beginWaitStart c).seq with latch := b } } c =
      ((s.updCtx c (Frame.toWaitStart s.sensor.generation s.seq.missed)).updHead fun e =>
        { e with missed := satAdd e.missed s.seq.missed }).ctx c := by cases c <;> rfl
    rw [this, updHead_ctx, updCtx_ctx_of_ctx hf]
  have blocks : ∀ b, State.blocksFlush
      { s.beginWaitStart c with seq := { (s.beginWaitStart c).seq with latch := b } } c = true :=
    fun b => by rw [blocksFlush_of_ctx (ctx b)]; exact Frame.blocksFlush_of_phase (p := .waitStart) rfl
  rw [enterWaitStart_eq]
  dsimp only
  split
  · exact h.startCondition begun r (blocks _)
  · split
    · exact h.startCondition (h.updCtx_same (h.unchanged begun (set_latch _ false)) c _) r
        (blocksFlush_updCtx_same (blocks false))
    · split
      · exact h.updCtx_same begun c _
      · exact begun

theorem Sustained.gapAdvance (c : CtxId) : K (s.gapAdvance c) := by
  unfold State.gapAdvance
  split
  · exact hs
  · split
    · rename_i hc
      split
      · exact h.closeFrame hs c _
      · exact hs
      · exact hs
      · split
        · rename_i free
          exact h.enterWaitStart hs _ hc free.2
        · exact hs
    · exact hs

theorem Sustained.askFlush (b : Bool) : K { s with sensor := { s.sensor with flushWaits := b } } :=
  h.keeps hs (.waits s b s.sensor.engineWaits)

theorem Sustained.askPort (b : Bool) : K { s with sensor := { s.sensor with engineWaits := b } } :=
  h.keeps hs (.waits s s.sensor.flushWaits b)

theorem Sustained.gapEvaluate (c : CtxId) : K (s.gapEvaluate c) := by
  have advanced := h.gapAdvance hs c
  unfold State.gapEvaluate
  dsimp only
  split
  · exact h.askFlush advanced true
  · exact advanced

theorem Sustained.gapEvaluateAll : K s.gapEvaluateAll := h.gapEvaluate (h.gapEvaluate hs .c0) .c1

/-! ## Events at the contexts -/

theorem Sustained.readoutEnd (c : CtxId) : K (s.readoutEnd c) := by
  unfold State.readoutEnd
  split
  · exact hs
  · rename_i f hf
    split
    · have closed := h.closeFrame hs c f.readoutOutcome
      dsimp only
      split
      · rename_i deferred
        obtain ⟨g, hg, exposing⟩ := (Option.any_eq_true _ _).mp deferred
        refine h.exposureEnd closed ?_
        rw [blocksFlush_of_ctx hg]
        exact Frame.blocksFlush_of_phase (p := .exposing) (by simp at exposing; exact exposing.1)
      · exact h.gapEvaluate closed _
    · exact hs

theorem Sustained.startEvent (r : CaptureRequest) : K (s.startEvent r) := by
  have blocks : ∀ c, s.inPhase c .waitStart = true → s.blocksFlush c = true := fun c hc => by simp [State.blocksFlush, hc]
  unfold State.startEvent
  split
  · rename_i hc
    exact h.startCondition hs r (blocks _ hc)
  · split
    · rename_i hc
      exact h.startCondition hs r (blocks _ hc)
    · exact h.unchanged hs (earlyTrigger_frame r s)

theorem Sustained.endEventAt (c : CtxId) : K (s.endEventAt c) := by
  unfold State.endEventAt
  split
  · exact hs
  · rename_i f hf
    split
    · exact h.updCtx_same hs c _
    · rename_i exposing
      split
      · exact h.exposureWouldEnd hs (by rw [blocksFlush_of_ctx hf]; exact Frame.blocksFlush_of_phase exposing)
      · exact hs
    · exact hs

theorem Sustained.endEvent : K s.endEvent := by
  unfold State.endEvent
  split <;> exact h.endEventAt hs _

/-! ## Stops -/

theorem Sustained.gracefulAt (c : CtxId) : K (s.gracefulAt c) := by
  unfold State.gracefulAt
  split
  · exact h.closeFrame hs c _
  · exact hs

theorem Sustained.abortAt (c : CtxId) : K (s.abortAt c) := by
  unfold State.abortAt
  split
  · exact hs
  · rename_i f hf
    split
    · exact h.closeFrame hs c _
    · exact h.closeFrame hs c _
    · exact h.closeFrame hs c _
    · exact h.closeFrame (h.untouched hs) c _
    · rename_i exposing
      have released : K s.releaseLines := h.unchanged hs (releaseLines_frame s)
      have still : s.releaseLines.blocksFlush c = true := by
        rw [show s.releaseLines.blocksFlush c = s.blocksFlush c by cases c <;> rfl, blocksFlush_of_ctx hf]
        exact Frame.blocksFlush_of_phase exposing
      dsimp only
      split
      · exact h.updCtx_same (h.updCtx_same released c _) c _
      · exact h.enterReadout (h.updCtx_same released c _) (blocksFlush_updCtx_same still)
    · exact h.updCtx_same hs c _
    · exact hs

theorem Sustained.applyStop (k : StopKind) : K (s.applyStop k) := by
  unfold State.applyStop
  dsimp only
  split
  · exact h.untouched hs
  · split
    · exact h.gracefulAt (h.gracefulAt (h.untouched hs) _) _
    · exact h.abortAt (h.abortAt (h.untouched hs) _) _

omit h hs in
@[simp] theorem Entry.flush_form (e : Entry) : e.flush.form = e.form := by unfold Entry.flush; split <;> rfl

omit h hs in
theorem stopQueued_form {tag : Word} {l l' : List Entry} (hl : stopQueued tag l = some l') :
    l'.map Entry.form = l.map Entry.form := by
  induction l generalizing l' with
  | nil => simp [stopQueued] at hl
  | cons e rest ih =>
    unfold stopQueued at hl
    split at hl
    · cases hl
      rfl
    · obtain ⟨rest', hr, rfl⟩ := Option.map_eq_some_iff.mp hl
      simp [ih hr]

theorem Sustained.stopAllRequests (k : StopKind) : K (s.stopAllRequests k) := by
  have marked : K s.recordMark := h.unchanged hs (recordMark_frame s)
  unfold State.stopAllRequests
  dsimp only
  split
  · exact marked
  · rename_i e rest hq
    have flushed := h.keeps marked (.queue _ (e :: rest.map Entry.flush) (by simp [hq, Function.comp_def]))
    split
    · exact h.applyStop flushed k
    · exact flushed

theorem Sustained.stopByTag (tag : Word) (k : StopKind) {t : State} (ht : s.stopByTag tag k = some t) : K t := by
  unfold State.stopByTag at ht
  split at ht
  · cases ht
  · rename_i e rest hq
    split at ht
    · cases ht
      exact h.applyStop hs k
    · obtain ⟨rest', hr, rfl⟩ := Option.map_eq_some_iff.mp ht
      exact h.keeps hs (.queue s _ (by simp [hq, stopQueued_form hr]))

theorem Sustained.tidyInterval : K s.tidyInterval := h.unchanged hs (tidyInterval_frame s)

theorem Sustained.becomeActive : K s.becomeActive := h.unchanged hs (becomeActive_frame s)

end

end Sys2Proof.Machine
end

section
/-! SUPPORT for O55 to O57, O59 and O60. READY and the replay: what the power state becoming READY sets going neither reads
nor writes the replay's position and counts, but for the counts that the record in hand reports, so that they may be
forgotten first (`becomeReady_eq`; R124, R125). -/

set_option Elab.async false

namespace Sys2Proof.Machine

open Sys2Proof

/-! ## What does not look at the replay's position and counts -/

theorem updCtx_forgetReplay (c : CtxId) (g : Frame → Frame) (s : State) :
    s.forgetReplay.updCtx c g = (s.updCtx c g).forgetReplay := by
  cases c
  · show State.updCtx .c0 g s.forgetReplay = _
    unfold State.updCtx
    rw [show s.forgetReplay.ctx .c0 = s.ctx .c0 from rfl]
    cases s.ctx .c0 <;> rfl
  · unfold State.updCtx
    rw [show s.forgetReplay.ctx .c1 = s.ctx .c1 from rfl]
    cases s.ctx .c1 <;> rfl

theorem closeFrame_forgetReplay (c : CtxId) (o : FrameOutcome) (s : State) :
    s.forgetReplay.closeFrame c o = (s.closeFrame c o).forgetReplay := by
  unfold State.closeFrame
  cases c
  · rw [show s.forgetReplay.ctx .c0 = s.ctx .c0 from rfl]
    cases s.ctx .c0 <;> rfl
  · rw [show s.forgetReplay.ctx .c1 = s.ctx .c1 from rfl]
    cases s.ctx .c1 <;> rfl

theorem updHead_forgetReplay (g : Entry → Entry) (s : State) :
    s.forgetReplay.updHead g = (s.updHead g).forgetReplay := by
  unfold State.updHead
  rw [show s.forgetReplay.sched = s.sched from rfl]
  cases s.sched.queue <;> rfl

theorem ite_forgetReplay (p : Prop) [Decidable p] (s t : State) :
    (if p then s else t).forgetReplay = if p then s.forgetReplay else t.forgetReplay := by split <;> rfl

theorem enterExposing_forgetReplay (r : CaptureRequest) (c : CtxId) (s : State) :
    s.forgetReplay.enterExposing r c = (s.enterExposing r c).forgetReplay := by
  unfold State.enterExposing
  rw [show s.forgetReplay.now = s.now from rfl, updCtx_forgetReplay]
  rfl

theorem startCondition_forgetReplay (r : CaptureRequest) (c : CtxId) (s : State) :
    s.forgetReplay.startCondition r c = (s.startCondition r c).forgetReplay := by
  unfold State.startCondition
  dsimp only
  rw [ite_forgetReplay, updCtx_forgetReplay, enterExposing_forgetReplay, updCtx_forgetReplay]
  rfl

theorem beginWaitStart_forgetReplay (c : CtxId) (s : State) :
    s.forgetReplay.beginWaitStart c = (s.beginWaitStart c).forgetReplay := by
  unfold State.beginWaitStart
  dsimp only
  rw [updCtx_forgetReplay, updHead_forgetReplay]
  rfl

theorem setLatch_forgetReplay (b : Bool) (s : State) :
    ({ s.forgetReplay with seq := { s.forgetReplay.seq with latch := b } } : State) =
      State.forgetReplay { s with seq := { s.seq with latch := b } } := rfl

theorem enterWaitStart_forgetReplay (r : CaptureRequest) (c : CtxId) (s : State) :
    s.forgetReplay.enterWaitStart r c = (s.enterWaitStart r c).forgetReplay := by
  simp only [enterWaitStart_eq, ite_forgetReplay, beginWaitStart_forgetReplay, startCondition_forgetReplay,
    updCtx_forgetReplay, setLatch_forgetReplay]
  rfl

theorem inPhase_forgetReplay (c : CtxId) (p : Phase) (s : State) : s.forgetReplay.inPhase c p = s.inPhase c p := by
  cases c <;> rfl

theorem gapAdvance_forgetReplay (c : CtxId) (s : State) :
    s.forgetReplay.gapAdvance c = (s.gapAdvance c).forgetReplay := by
  unfold State.gapAdvance
  rw [show s.forgetReplay.request = s.request from rfl, show s.forgetReplay.sensor.power = s.sensor.power from rfl,
    show s.forgetReplay.sensor.staged = s.sensor.staged from rfl, show s.forgetReplay.sensor.flush = s.sensor.flush from rfl,
    inPhase_forgetReplay]
  cases s.request with
  | none => rfl
  | some r =>
    cases s.sensor.power <;> simp only [ite_forgetReplay, closeFrame_forgetReplay, enterWaitStart_forgetReplay]

theorem gapEvaluate_forgetReplay (c : CtxId) (s : State) :
    s.forgetReplay.gapEvaluate c = (s.gapEvaluate c).forgetReplay := by
  unfold State.gapEvaluate
  dsimp only
  rw [gapAdvance_forgetReplay, ite_forgetReplay, inPhase_forgetReplay, inPhase_forgetReplay]
  rfl

theorem gapEvaluateAll_forgetReplay (s : State) : s.forgetReplay.gapEvaluateAll = s.gapEvaluateAll.forgetReplay := by
  unfold State.gapEvaluateAll
  rw [gapEvaluate_forgetReplay, gapEvaluate_forgetReplay]

theorem writeSlots_forgetReplay (u : Setup) (c : Completion) (s : State) :
    s.forgetReplay.writeSlots u c = (s.writeSlots u c).forgetReplay := by
  unfold State.writeSlots
  dsimp only
  split <;> rfl

theorem handOver_forgetReplay (c : Completion) (s : State) :
    s.forgetReplay.handOver c = (s.handOver c).forgetReplay := by
  unfold State.handOver
  rw [show s.forgetReplay.ring = s.ring from rfl]
  cases s.ring.setup with
  | none => rfl
  | some u =>
    dsimp only
    rw [writeSlots_forgetReplay]
    unfold State.coalesce
    rw [ite_forgetReplay]
    rfl

theorem engineTest_forgetReplay (s : State) : s.forgetReplay.engineTest = s.engineTest.forgetReplay := by
  unfold State.engineTest
  rw [ite_forgetReplay, show s.forgetReplay.engine = s.engine from rfl]
  cases s.engine.mode
  · rfl
  · simp only [ite_forgetReplay]
    rfl
  · rfl

theorem finishRecord_forgetReplay (r : ControlResult) (s : State) :
    s.forgetReplay.finishRecord r = (s.finishRecord r).forgetReplay := by
  unfold State.finishRecord
  rw [handOver_forgetReplay, ← engineTest_forgetReplay]
  rfl

/-! ## READY -/

/-- The power state is READY, and no replay is under way. -/
def State.readyNow (s : State) : State :=
  { s with sensor := { s.sensor with power := .ready, replayPos := 0, replayed := 0, failed := 0 } }

/-- The record in hand at READY, with the counts of the replay that led to it (R113, R124). -/
def State.reportReady (replayed failed : Nat) (s : State) : State :=
  match s.engine.job with
  | some { tag := tag, work := .power _ _ true } =>
    s.finishRecord { kind := kindSensorPower, tag := tag, status := .already }
  | some { tag := tag, work := .power _ _ false } =>
    s.finishRecord { kind := kindSensorPower, tag := tag, status := .done, replayed := replayed, failed := failed }
  | some { tag := _, work := .write _ _ } => { s with sensor := { s.sensor with engineWaits := true } }
  | some { tag := _, work := .read _ } => { s with sensor := { s.sensor with engineWaits := true } }
  | some { tag := _, work := .flush } => s
  | none => s

theorem readyForRecord_forgetReplay (s : State) :
    s.readyForRecord.forgetReplay = s.forgetReplay.reportReady s.sensor.replayed s.sensor.failed := by
  unfold State.readyForRecord State.reportReady
  rw [show s.forgetReplay.engine = s.engine from rfl]
  cases s.engine.job with
  | none => rfl
  | some j =>
    obtain ⟨tag, work⟩ := j
    cases work with
    | write a v => rfl
    | read a => rfl
    | flush => rfl
    | power cycle replay joined => cases joined <;> exact (finishRecord_forgetReplay _ s).symm

theorem becomeReady_eq (s : State) :
    s.becomeReady = s.readyNow.gapEvaluateAll.reportReady s.sensor.replayed s.sensor.failed := by
  have counts := (gapEvaluateAll_frame { s with sensor := { s.sensor with power := .ready } }).get .replay
  simp only [Part.same, Prod.mk.injEq] at counts
  obtain ⟨-, replayed, failed⟩ := counts
  rw [State.becomeReady, readyForRecord_forgetReplay, replayed, failed, ← gapEvaluateAll_forgetReplay]
  rfl

end Sys2Proof.Machine
end

section
/-! SUPPORT for O55 to O57, O59 and O60. The shared operations of the Sensor Link and of the control records, made of
changes: an invariant that every change keeps is kept by each (chapters 6 and 7). -/

set_option Elab.async false

namespace Sys2Proof.Machine

open Sys2Proof

section
variable {K : State → Prop} (h : Sustained K) {s : State} (hs : K s)
include h hs

/-! ## Records in hand -/

theorem Sustained.finishRecord (r : ControlResult) (hr : InRecord K s ∨ s.engine.job.isSome = true) :
    K (s.finishRecord r) :=
  h.engineTest (h.keeps hs (.finish r hr))

theorem Sustained.checkFlushRecord : K s.checkFlushRecord := by
  unfold State.checkFlushRecord
  split
  · rename_i hj
    split
    · exact h.finishRecord hs _ (.inr (by simp [hj]))
    · split
      · exact h.askFlush hs true
      · exact hs
  · exact hs

theorem Sustained.reportReady (replayed failed : Nat) : K (s.reportReady replayed failed) := by
  unfold State.reportReady
  split
  · rename_i hj
    exact h.finishRecord hs _ (.inr (by simp [hj]))
  · rename_i hj
    exact h.finishRecord hs _ (.inr (by simp [hj]))
  · exact h.askPort hs true
  · exact h.askPort hs true
  · exact hs
  · exact hs

/-! ## The replay and the arbiter (R110, R125) -/

theorem Sustained.replayNext {waits : Bool} (may : s.replayMayWrite waits) :
    K (State.replayNext { s with sensor := { s.sensor with replayWaits := waits } }) := by
  unfold State.replayNext
  split
  · rename_i a e stale
    exact h.keeps hs (.replayWrites (a, e) waits may stale)
  · rw [becomeReady_eq]
    exact h.reportReady (h.gapEvaluateAll (h.keeps hs (.replayEnds waits may))) _ _

theorem Sustained.grantReplay : K s.grantReplay := by
  unfold State.grantReplay
  split
  · rename_i free
    exact h.replayNext hs (.inl ⟨free.1, free.2, rfl⟩)
  · exact hs

theorem Sustained.grantFlush : K s.grantFlush := by
  unfold State.grantFlush
  split
  · rename_i free
    have taken := h.askFlush hs false
    dsimp only
    split
    · rename_i may
      exact h.keeps taken (.beginFlush free.1 may.1 may.2)
    · exact h.checkFlushRecord (h.gapAdvance (h.gapAdvance taken .c0) .c1)
  · exact hs

theorem Sustained.grantEngine : K s.grantEngine := by
  unfold State.grantEngine
  split
  · rename_i free
    have taken := h.askPort hs false
    dsimp only
    split
    · rename_i hj
      exact h.keeps taken (.startEngine _ _ free.1 hj rfl)
    · rename_i hj
      exact h.keeps taken (.startEngine _ _ free.1 hj rfl)
    · exact taken
  · exact hs

theorem Sustained.arbitrate : K s.arbitrate := h.grantEngine (h.grantFlush (h.grantReplay hs))

theorem Sustained.follow : K s.follow := h.tidyInterval (h.arbitrate (h.checkFlushRecord hs))

/-! ## The end of a transaction (R109) -/

theorem Sustained.replayWritten (ok : Bool) {a v : Half} {t : Transaction} (ht : s.sensor.port = some t)
    (owner : t.owner = .replay) (op : t.op = .write a v) : K (s.replayWritten ok a v) := by
  have counted := h.keeps hs (.replayCounted t ok a v ht owner op)
  have port : (s.replayCounted ok a v).sensor.port = s.sensor.port := (replayCounted_frame ok a v s).get .port
  exact h.replayNext counted (waits := (s.replayCounted ok a v).sensor.replayWaits)
    (.inr (.inl ⟨⟨t, port.trans ht, owner⟩, rfl⟩))

theorem Sustained.recordIf (ok : Bool) {a v : Half} (port : ∃ u t, K u ∧ u.sensor.port = some t ∧ t.op = .write a v) :
    K (if ok then s.recordWrite a v else s) := by
  cases ok
  · exact hs
  · exact h.keeps hs (.recordWrite s a v port)

omit h hs in
theorem recordIf_frame (ok : Bool) (a v : Half) (s : State) :
    unchangedBut [.mirror] s (if ok then s.recordWrite a v else s) := .ite (recordWrite_frame a v s) (.refl _ s)

theorem Sustained.endFlush {t : Transaction} (ht : s.sensor.port = some t) (owner : t.owner = .flush)
    (waiting : ∀ e, s.sensor.staged.head? = some e → e.inProgress = false) : K s.endFlush :=
  h.gapEvaluateAll (h.keeps hs (.endFlush t ht owner waiting))

theorem Sustained.entryWritten (ok : Bool) {a v : Half} {t : Transaction} (ht : s.sensor.port = some t)
    (owner : t.owner = .flush) (op : t.op = .write a v) : K (s.entryWritten ok a v) := by
  have recorded := h.recordIf hs ok ⟨s, t, hs, ht, op⟩
  have port := ((recordIf_frame ok a v s).get .port).trans ht
  unfold State.entryWritten
  dsimp only
  generalize (if ok = true then s.recordWrite a v else s) = u at recorded port ⊢
  split
  · rename_i hl
    exact h.endFlush recorded port owner (by simp [hl])
  · rename_i e rest hl
    split
    · rename_i writing
      have popped := fun r => h.keeps recorded (.popStaged t e rest r port owner hl writing)
      have port' := fun r => ((popStaged_frame rest r u).get .port).trans port
      have staged' : ∀ r, (u.popStaged rest r).sensor.staged = rest := fun r => (handOver_frame _ _).get .staged
      split
      · rename_i hr
        have empty : ∀ r, (u.popStaged rest r).sensor.staged.head? = none := fun r => by rw [staged' r, hr]; rfl
        exact h.endFlush (popped _) (port' _) owner fun e' he => absurd ((empty _).symm.trans he) (by simp)
      · rename_i hr
        obtain ⟨e', rest', hrest⟩ := List.exists_cons_of_ne_nil hr
        exact h.keeps (popped _) (.writeNext t e' rest' (port' _) owner ((staged' _).trans hrest))
    · rename_i waiting
      exact h.endFlush recorded port owner (by simp [hl, waiting])

theorem Sustained.leftFlushWritten (ok : Bool) {a v : Half} {t : Transaction} {g : Word} (ht : s.sensor.port = some t)
    (owner : t.owner = .leftFlush g) (op : t.op = .write a v) : K (s.leftFlushWritten ok a v) :=
  h.keeps (h.recordIf hs ok ⟨s, t, hs, ht, op⟩)
    (.endLeft t g (((recordIf_frame ok a v s).get .port).trans ht) owner)

theorem Sustained.recordTransacted (ok : Bool) (value : Half) {t : Transaction} (ht : s.sensor.port = some t)
    (owner : t.owner = .engine) : K (s.recordTransacted ok t.op value) := by
  have freed := h.keeps hs (.freePort t ht (.inl owner))
  unfold State.recordTransacted
  dsimp only
  split
  · exact freed
  · rename_i j hj
    split
    · rename_i a v op
      refine h.finishRecord (h.recordIf freed ok ⟨s, t, hs, ht, op⟩) _ (.inr ?_)
      rw [show (if ok = true then s.freePort.recordWrite a v else s.freePort).engine = s.freePort.engine from
        (recordIf_frame ok a v s.freePort).get .engine, hj]
      rfl
    · exact h.finishRecord freed _ (.inr (by rw [hj]; rfl))

theorem Sustained.clearedTransacted (ok : Bool) {t : Transaction} (ht : s.sensor.port = some t)
    (owner : t.owner = .cleared) : K (s.clearedTransacted ok t.op) := by
  have freed := h.keeps hs (.freePort t ht (.inr (.inl owner)))
  unfold State.clearedTransacted
  dsimp only
  split
  · rename_i a v op
    exact h.recordIf freed ok ⟨s, t, hs, ht, op⟩
  · exact freed

theorem Sustained.transactionEnds (ok : Bool) (value : Half) : K (s.transactionEnds ok value) := by
  unfold State.transactionEnds
  split
  · exact hs
  · rename_i t ht
    split
    · rename_i owner op
      exact h.follow (h.replayWritten hs ok ht owner op)
    · rename_i owner op
      exact h.follow (h.entryWritten hs ok ht owner op)
    · rename_i owner
      exact h.follow (h.recordTransacted hs ok value ht owner)
    · rename_i owner
      exact h.follow (h.clearedTransacted hs ok ht owner)
    · rename_i owner op
      exact h.follow (h.leftFlushWritten hs ok ht owner op)
    · rename_i op _ _
      exact h.follow (h.keeps hs (.freePort t ht (.inr (.inr ⟨_, op⟩))))

/-! ## Sensor power (R126 to R128) -/

theorem Sustained.powerOffAt (c : CtxId) : K (s.powerOffAt c) := by
  unfold State.powerOffAt
  split
  · exact hs
  · split
    · exact hs
    · exact hs
    · exact h.closeFrame hs c _
    · exact h.closeFrame hs c _
    · exact h.closeFrame (h.untouched hs) c _
    · exact h.closeFrame (h.updCtx_same (h.unchanged hs (releaseLines_frame s)) c _) c _
    · exact h.closeFrame hs c _

theorem Sustained.powerOffNotice : K s.powerOffNotice := by
  obtain ⟨c, hc⟩ := powerOffNotice_eq s
  rw [hc]
  exact h.unchanged (h.untouched (h.powerOffAt (h.powerOffAt hs c) (other c))) (receiverOff_frame _)

theorem Sustained.removePower : K s.removePower := h.keeps (h.powerOffNotice hs) (.cutPower s.powerOffNotice)

end

end Sys2Proof.Machine
end

section
/-! SUPPORT for O55 to O57, O59 and O60. The grants, the part states and every command, made of changes: an invariant that
every change keeps is kept by every step (`Sustained.step`). -/

set_option Elab.async false

namespace Sys2Proof.Machine

open Sys2Proof

/-! ## Facts that grants rest on -/

theorem frameRequest_of_requestingContext {s : State} {c : CtxId} {n : Nat} (h : s.requestingContext = some (c, n)) :
    frameRequest (s.ctx c) = some n := by
  unfold State.requestingContext at h
  split at h
  · rename_i m h0
    cases h
    exact h0
  · obtain ⟨m, h1, hm⟩ := Option.map_eq_some_iff.mp h
    cases hm
    exact h1

theorem reserved_setCtx {s : State} {c : CtxId} {f : Option Frame} (h : heldSlots f = heldSlots (s.ctx c)) :
    (s.setCtx c f).reserved = s.reserved := by
  cases c
  · show _ + _ + heldSlots f + _ + _ + _ = _
    rw [h]
    rfl
  · show _ + _ + _ + heldSlots f + _ + _ = _
    rw [h]
    rfl

theorem freeCredit_setCtx {s : State} {c : CtxId} {f : Option Frame} (h : heldSlots f = heldSlots (s.ctx c)) :
    (s.setCtx c f).freeCredit = s.freeCredit := by
  have unfreed : (s.setCtx c f).unfreed = s.unfreed := by cases c <;> rfl
  have size : (s.setCtx c f).cplSize = s.cplSize := by cases c <;> rfl
  rw [State.freeCredit, State.freeCredit, reserved_setCtx h, unfreed, size]

theorem serve_length (as : List Assignment) (cache : List CacheEntry) : (serve as cache).1.length = as.length := by
  induction as generalizing cache with
  | nil => rfl
  | cons a rest ih =>
    unfold serve
    split
    · simp [ih]
    · split
      · rfl
      · split
        · rfl
        · simp [ih]

/-! ## Entry to DRAINING and RUNNING in two parts -/

/-- Entry to DRAINING behind the change of the part state (R176). -/
def State.drainOn (s : State) : State :=
  (s.stopAllRequests .abort).discardWaiting.engineDrain.captureTest.follow

theorem enterDraining_eq (s : State) : s.enterDraining = State.drainOn { s with link := { s.link with part := .draining } } :=
  rfl

/-- The Setup Block taken up, with BAD_INDEX for a tail register out of range, and the Progress Block (R149). -/
def State.setupReported (u : Setup) (p : PartState) (s : State) : State :=
  let bad :=
    decide (u.control.size ≤ s.ring.ctlTail.toNat) || decide (u.capture.size ≤ s.ring.capTail.toNat) ||
      decide (u.buffer.size ≤ s.ring.bufTail.toNat)
  (if bad then (s.setupTaken u p).raise Causes.onlyBadIndex else s.setupTaken u p).writeProgress

theorem takeSetup_eq (u : Setup) (s : State) :
    s.takeSetup u =
      if s.link.enable then (s.setupReported u .running).engineTest.captureTest.bufferTest
      else (s.setupReported u .draining).drainOn := by
  unfold State.takeSetup State.setupReported
  dsimp only
  generalize (decide (u.control.size ≤ s.ring.ctlTail.toNat) || decide (u.capture.size ≤ s.ring.capTail.toNat) ||
      decide (u.buffer.size ≤ s.ring.bufTail.toNat)) = bad
  cases bad <;> rfl

theorem InRecord.of_same {K : State → Prop} {s t : State} (h : InRecord K s) (engine : t.engine = s.engine)
    (part : t.link.part = s.link.part) : InRecord K t := by
  obtain ⟨u, hu, read, he, hp⟩ := h
  exact ⟨u, hu, read, engine.trans he, part.trans hp⟩

theorem moveMark_frame (s : State) : unchangedBut [.flushMark] s s.moveMark := by
  unfold State.moveMark
  split
  · exact .refl _ _
  · refine .ite ?_ (.refl _ _)
    intro p hp
    cases p <;> first | rfl | exact absurd (by decide) hp

theorem storeTail_frame (r : RingId) (v : Word) (s : State) : unchangedBut [.tails] s (s.storeTail r v) := by
  cases r <;> intro p hp <;> cases p <;> first | rfl | exact absurd (by decide) hp

theorem windowSetResult_windows (u : Setup) (ws : List WindowEntry) (n : Nat) (w : WindowDef) :
    (windowSetResult u ws n w).1 = ws ∨ (windowSetResult u ws n w).1 = setWindow n (some w) ws := by
  unfold windowSetResult
  split
  · exact .inl rfl
  · exact .inr rfl

theorem windowClearResult_windows (ws : List WindowEntry) (n : Nat) :
    (windowClearResult ws n).1 = ws ∨ (windowClearResult ws n).1 = setWindow n none ws := by
  unfold windowClearResult
  split
  · exact .inl rfl
  · split
    · exact .inl rfl
    · exact .inr rfl

section
variable {K : State → Prop} (h : Sustained K) {s : State} (hs : K s)
include h hs

/-! ## Buffers and grants (R95 to R97, R165) -/

theorem Sustained.assignBuffers {c : CtxId} {f : Frame} (hf : s.ctx c = some f) (may : MayServe K f) :
    K (s.assignBuffers c) := by
  rw [assignBuffers_of_ctx hf]
  refine h.bufferTest ?_
  have served := h.keeps hs (.serve s f.assignments)
  have hf' : State.ctx { s with bufs := { s.bufs with cache := (serve f.assignments s.bufs.cache).2.1 } } c = some f := by
    cases c <;> exact hf
  have stored : K (s.storeServed c (serve f.assignments s.bufs.cache)) := h.updCtx served fun g hg => by
    obtain rfl := Option.some.inj (hg.symm.trans hf')
    exact .of_samePhase rfl rfl rfl (serve_length _ _) rfl
  have hg : (s.storeServed c (serve f.assignments s.bufs.cache)).ctx c =
      some { f with assignments := (serve f.assignments s.bufs.cache).1 } := updCtx_ctx_of_ctx hf' _
  unfold State.afterServe
  split
  · rw [updCtx_of_ctx hg]
    exact h.gapEvaluate (h.keeps stored (.served _ hg may (.inl rfl))) c
  · split
    · exact h.closeFrame stored c _
    · exact stored
  · rw [updCtx_of_ctx hg]
    exact h.keeps stored (.served _ hg may (.inr rfl))

theorem Sustained.returnFront (reason : CacheEntry → ReturnReason) (credit : 1 ≤ s.freeCredit) :
    K (s.returnFront reason) := by
  unfold State.returnFront
  split
  · exact hs
  · rename_i e rest hc
    exact h.bufferTest (h.keeps hs (.returnEntry e rest _ hc credit))

omit h hs in
theorem returnFront_ctx (reason : CacheEntry → ReturnReason) (c : CtxId) : (s.returnFront reason).ctx c = s.ctx c :=
  ctx_of_contexts (returnFront_frame reason s) c

theorem Sustained.grantFrame {c : CtxId} {n : Nat} (asked : frameRequest (s.ctx c) = some n)
    (credit : n ≤ s.freeCredit) : K (s.grantFrame c) := by
  unfold State.grantFrame
  split
  · exact hs
  · rename_i f hf
    split
    · rename_i returns
      obtain ⟨ask, held⟩ := returns
      have one : n = 1 := by simpa [hf, frameRequest, ask, held, eq_comm] using asked
      have goes : f.Goes { f with returnAsked := false } s.sensor.flush :=
        { slots := rfl, credit := rfl, assignments := rfl, asked := fun hg => by simp at hg, blocks := .inl }
      rw [updCtx_of_ctx hf]
      have free : 1 ≤ (s.setCtx c (some { f with returnAsked := false })).freeCredit := by
        rw [freeCredit_setCtx (by rw [hf]; rfl), ← one]
        exact credit
      have returned := h.returnFront (h.keeps hs (.goes _ hf goes)) CacheEntry.refusal free
      refine h.assignBuffers returned (f := { f with returnAsked := false }) ?_ ?_
      · rw [returnFront_ctx, setCtx_ctx_same]
      · exact ⟨s, c, f, hs, hf, rfl, held, .inl ⟨ask, rfl⟩⟩
    · rename_i noReturn
      rw [updCtx_of_ctx hf]
      have granted := h.keeps hs (.grantFrame n hf (hf ▸ asked) credit noReturn)
      dsimp only
      split
      · rename_i reserving
        have hg := setCtx_ctx_same s c (some { f with creditHeld := true })
        have measured : K (State.measure c (s.setCtx c (some { f with creditHeld := true }))) :=
          h.updCtx_same granted c _ (assignments := fun g => by simp)
        exact h.assignBuffers measured (updCtx_ctx_of_ctx hg _) ⟨s, c, f, hs, hf, rfl, rfl, .inr ⟨reserving, rfl, noReturn⟩⟩
      · exact granted

theorem Sustained.grant {r : Requester} {n : Nat} (asked : s.waitingRequest r = some n) (credit : n ≤ s.freeCredit) :
    K (s.grant r) := by
  cases r with
  | capture =>
    obtain ⟨ask, rfl⟩ : s.sched.credit = .asked ∧ 1 = n := by simpa [State.waitingRequest] using asked
    exact h.captureTest (h.keeps hs (.grantCapture ask credit))
  | sequencer =>
    unfold State.grant
    dsimp only
    split
    · exact hs
    · rename_i c m hc
      have hm : m = n := by simpa [State.waitingRequest, hc] using asked
      exact h.grantFrame hs (frameRequest_of_requestingContext hc) (hm ▸ credit)
  | buffer =>
    obtain ⟨-, rfl⟩ : _ ∧ 1 = n := by simpa [State.waitingRequest] using asked
    exact h.returnFront hs _ credit
  | engine =>
    obtain ⟨ask, rfl⟩ : s.engine.credit = .asked ∧ 1 = n := by simpa [State.waitingRequest] using asked
    exact h.engineTest (h.keeps hs (.grantEngine ask credit))

omit hs in
theorem Sustained.grantPass (rs : List Requester) {s : State} (hs : K s) : K (grantPass rs s) := by
  induction rs generalizing s with
  | nil => exact hs
  | cons r rest ih =>
    unfold Machine.grantPass
    split
    · exact ih hs
    · rename_i n asked
      split
      · rename_i credit
        exact ih (h.grant hs asked credit)
      · exact hs

theorem Sustained.bufferArrived : K s.bufferArrived := by
  have serves : ∀ c, awaitsBuffer (s.ctx c) = true → K (s.assignBuffers c) := fun c hc => by
    obtain ⟨f, hf, waits⟩ := (Option.any_eq_true _ _).mp hc
    simp only [Bool.and_eq_true, decide_eq_true_eq, Bool.not_eq_true'] at waits
    obtain ⟨⟨reserving, held⟩, noReturn⟩ := waits
    exact h.assignBuffers hs hf ⟨s, c, f, hs, hf, rfl, held, .inr ⟨reserving, rfl, by simp [noReturn]⟩⟩
  unfold State.bufferArrived
  split
  · rename_i hc
    exact serves .c0 hc
  · split
    · rename_i hc
      exact serves .c1 hc
    · exact hs

/-! ## The part states (chapter 10) -/

theorem Sustained.drainOn : K s.drainOn :=
  h.follow (h.captureTest (h.keeps (h.keeps (h.stopAllRequests hs .abort) (.discardWaiting _)) (.engineDrain _)))

theorem Sustained.takeSetup (u : Setup) (read : s.ring.setupRead.isSome = true) (ok : setupCheck u = none) :
    K (s.takeSetup u) := by
  have reported : ∀ p, p = .running ∨ p = .draining → K (s.setupReported u p) := fun p hp => by
    have taken := h.keeps hs (.takeSetup u p read ok hp)
    unfold State.setupReported
    dsimp only
    refine h.unchanged (ps := [.issued]) ?_ (writeProgress_frame _)
    split
    · exact h.raise taken _
    · exact taken
  rw [takeSetup_eq]
  split
  · exact h.bufferTest (h.captureTest (h.engineTest (reported _ (.inl rfl))))
  · exact h.drainOn (reported _ (.inr rfl))

theorem Sustained.readFails (r : HostRead) : K (s.readFails r) := by
  unfold State.readFails
  split
  · exact h.keeps hs (.enterHalted s _ _)
  · exact hs

/-! ## Control records (chapter 7) -/

theorem Sustained.takeRecord {f : State → State} (hf : ∀ u, K u → InRecord K u → K (f u)) : K (s.takeRecord f) := by
  unfold State.takeRecord
  split
  · exact hs
  · rename_i read hr
    have frame := advanceRing_frame .control s
    have some : s.ring.ctlRead.isSome = true := by rw [hr]; rfl
    refine hf _ (h.keeps hs (.takeRecord some)) ⟨s, hs, some, ?_, frame.get .partState⟩
    show { (s.advanceRing .control).engine with mode := .executing } = _
    rw [show (s.advanceRing .control).engine = s.engine from frame.get .engine]

theorem Sustained.setWindows (r : InRecord K s) {ws : List WindowEntry} {n : Nat} {w : Option WindowDef}
    (hw : ws = s.cutter.windows ∨ ws = setWindow n w s.cutter.windows) (result : ControlResult) :
    K (State.finishRecord result { s with cutter := { s.cutter with windows := ws } }) := by
  refine h.finishRecord ?_ _ (.inl (r.of_same rfl rfl))
  obtain rfl | rfl := hw
  · exact hs
  · exact h.keeps hs (.window s n w)

theorem Sustained.checkAddress (r : InRecord K s) (kind : Byte) (tag : Word) (address : Half) {f : State → State}
    (hf : address.toNat < 512 → K (f s)) : K (s.checkAddress kind tag address f) := by
  unfold State.checkAddress
  split
  · rename_i below
    exact hf below
  · exact h.finishRecord hs _ (.inl r)

theorem Sustained.sensorAccess (r : InRecord K s) (kind : Byte) (j : Job)
    (address : ∀ a, j.work.address = some a → a.toNat < 512) : K (s.sensorAccess kind j) := by
  unfold State.sensorAccess
  split
  · exact h.finishRecord hs _ (.inl r)
  · exact h.finishRecord hs _ (.inl r)
  · exact h.keeps hs (.hold j r address)
  · exact h.arbitrate (h.askPort (h.keeps hs (.hold j r address)) true)

theorem Sustained.stage (r : InRecord K s) (tag : Word) (address value : Half) (below : address.toNat < 512) :
    K (s.stage tag address value) := by
  unfold State.stage
  split
  · rename_i room
    have joined := h.keeps hs
      (.stage { address := address, value := value, tag := tag, inProgress := false } r below room rfl)
    refine h.follow (h.engineTest (h.gapEvaluateAll ?_))
    dsimp only
    split
    · exact h.keeps joined (.discardWaiting _)
    · exact joined
  · exact h.finishRecord hs _ (.inl r)

theorem Sustained.powerUp (r : InRecord K s) (off : s.sensor.power = .off) (replay : Bool) (tag : Word) (cycle joined : Bool) :
    K (State.follow (State.hold { tag := tag, work := .power cycle replay joined } (s.applyPower replay))) :=
  h.follow (h.keeps (h.keeps hs (.applyPower replay off)) (.hold _ (r.of_same rfl rfl) fun a ha => by simp [Work.address] at ha))

omit h hs in
theorem InRecord.removePower (r : InRecord K s) : InRecord K s.removePower :=
  r.of_same ((removePower_frame s).get .engine) ((removePower_frame s).get .partState)

theorem Sustained.placeRecord (data : List Byte) {read : ReadInProgress} {u : Setup} (hr : s.ring.capRead = some read)
    (hu : s.ring.setup = some u) : K (((s.advanceRing .capture).clearMark).placeEntry (s.entryOf u data)).captureTest := by
  have joined : K (s.joinQueue u data) := h.keeps hs (.joinQueue u data (by rw [hr]; rfl) hu)
  refine h.captureTest ?_
  unfold State.placeEntry
  dsimp only
  split
  · exact h.becomeActive joined
  · exact joined

/-! ## The pixel stream (chapters 4 and 5) -/

theorem Sustained.endReadout (r : Receiver) (c : CtxId) : K (State.follow (State.readoutEnd c { s with recv := r })) :=
  h.follow (h.readoutEnd (h.untouched hs) c)

theorem Sustained.countStray : K s.countStray := h.untouched hs

theorem Sustained.receiveLine (c : CtxId) (number : Nat) (pixels : List Nat) (check : Half) :
    K (s.receiveLine c number pixels check) := by
  have deliver : ∀ t : State, K t → K (t.deliverLine c number pixels) := fun t ht => by
    unfold State.deliverLine
    split
    · split
      · exact ht
      · exact h.untouched ht
    · exact ht
  have test : ∀ t : State, K t → K (t.testLine c number pixels check) := fun t ht => by
    unfold State.testLine
    split
    · exact h.updCtx_same ht c _
    · refine deliver _ ?_
      split
      · exact ht
      · exact h.updCtx_same ht c _
  have take : ∀ t : State, K t → K (t.takeLine c number) := fun t ht => by
    have missed := h.updCtx_same ht c fun f => { f with missingLines := f.missingLines + (number - t.recv.expected) }
    exact h.untouched missed
  unfold State.receiveLine
  split
  · exact h.updCtx_same hs c _
  · refine test _ (take _ ?_)
    split
    · exact hs
    · exact h.updCtx_same hs c _

theorem Sustained.offerSlice (sl : Slice) : K (s.offerSlice sl) := by
  unfold State.offerSlice
  split
  · exact hs
  · split
    · exact hs
    · split
      · exact h.updCtx_same hs sl.ctx _
      · rename_i fits
        exact h.keeps hs (.accept sl fits)

end

end Sys2Proof.Machine
end

section
/-! SUPPORT for O55 to O57, O59 and O60. Every command, made of changes: an invariant that every change keeps is kept by
every step (`Sustained.step`). -/

set_option Elab.async false

namespace Sys2Proof.Machine

open Sys2Proof

/-- What an invariant that every change keeps says of an outcome. -/
def Holds (K : State → Prop) (o : Host.Outcome State Fault Refusal) : Prop := ∀ t, o = .next t → K t

theorem Holds.next {K : State → Prop} {t : State} (ht : K t) : Holds K (.next t) := by
  rintro _ ⟨⟩
  exact ht

section
variable {K : State → Prop} (h : Sustained K) {s : State} (hs : K s)
include h hs

/-! ## Registers, resets and part states -/

theorem Sustained.execEnableSet : Holds K (execEnableSet s) := by
  refine .next ?_
  have stored : K { s with link := { s.link with enable := true } } := h.untouched hs
  dsimp only
  split
  · rename_i off
    exact h.keeps stored (.enterStarting off)
  · exact stored

theorem Sustained.execEnableClear : Holds K (execEnableClear s) := by
  refine .next ?_
  have stored : K { s with link := { s.link with enable := false } } := h.untouched hs
  dsimp only
  split
  · rename_i run
    rw [enterDraining_eq]
    exact h.drainOn (h.keeps stored (.beginDrain run))
  · rename_i halted
    exact h.keeps stored (.leaveHalted halted)
  all_goals exact stored

theorem Sustained.execSetupAddrWrite (half : AddrHalf) (value : Word) : Holds K (execSetupAddrWrite half value s) := by
  refine .next ?_
  split
  · cases half <;> exact h.untouched hs
  · exact hs

theorem Sustained.execTailWrite (r : RingId) (value : Word) : Holds K (execTailWrite r value s) := by
  have stored : K (s.storeTail r value) := h.unchanged hs (storeTail_frame r value s)
  have tested : K ((s.storeTail r value).tailTest r) := by
    cases r
    · exact h.engineTest stored
    · exact h.captureTest (h.unchanged stored (moveMark_frame _))
    · exact h.bufferTest stored
  have raised : K (s.raise Causes.onlyBadIndex) := h.raise hs _
  refine .next ?_
  split
  · exact stored
  · exact stored
  · split
    · exact stored
    · exact raised
  all_goals
    split
    · exact tested
    · exact raised

theorem Sustained.execCplHeadWrite (value : Word) : Holds K (execCplHeadWrite value s) := by
  refine .next ?_
  split
  · rename_i range
    exact h.keeps hs (.cplHead value range)
  · exact h.raise hs _

/-! ## Host reads -/

theorem Sustained.execSetupReadDone (data : List Byte) : Holds K (execSetupReadDone data s) := by
  refine .next ?_
  split
  · exact hs
  · rename_i read hr
    split
    · exact h.keeps hs (.enterHalted s _ _)
    · rename_i ok
      exact h.takeSetup hs _ (by rw [hr]; rfl) ok

theorem Sustained.execHostReadTimeout (read : HostRead) : Holds K (execHostReadTimeout read s) := by
  refine .next ?_
  split
  · exact h.readFails hs read
  · exact hs

theorem Sustained.execDrainFinish : Holds K (execDrainFinish s) := by
  refine .next ?_
  split
  · rename_i drained
    have left := h.keeps hs (.leaveDrain drained)
    dsimp only
    split
    · exact h.keeps left (.enterStarting rfl)
    · exact left
  · exact hs

theorem Sustained.execCaptureRecordRead (data : List Byte) : Holds K (execCaptureRecordRead data s) := by
  refine .next ?_
  split
  · rename_i hr hu
    exact h.placeRecord hs data hr hu
  · exact hs

theorem Sustained.execBufferEntryRead (data : List Byte) : Holds K (execBufferEntryRead data s) := by
  refine .next ?_
  split
  · exact hs
  · rename_i read hr
    have joined := h.keeps hs (.joinCache (parseBuffer s.ring.bufHead data) (by rw [hr]; rfl))
    exact h.follow (h.bufferTest (h.bufferArrived joined))

/-! ## Control records -/

theorem Sustained.refuse (result : ControlResult) : K (s.takeRecord (State.finishRecord result)) :=
  h.takeRecord hs fun _ hu r => h.finishRecord hu _ (.inl r)

theorem Sustained.execWindowSet (tag : Word) (number : Half) (w : WindowDef) : Holds K (execWindowSet tag number w s) := by
  refine .next (h.takeRecord hs fun u hu r => ?_)
  dsimp only
  split
  · exact hu
  · exact h.setWindows hu r (windowSetResult_windows _ _ _ _) _

theorem Sustained.execOrderSet (tag : Word) (values : List Byte) : Holds K (execOrderSet tag values s) := by
  refine .next (h.takeRecord hs fun u hu r => ?_)
  dsimp only
  split
  · exact h.finishRecord hu _ (.inl r)
  · rename_i order
    split
    · exact h.finishRecord hu _ (.inl r)
    · exact h.finishRecord (h.keeps hu (.order u _ (by simpa using order))) _ (.inl (r.of_same rfl rfl))

theorem Sustained.execSensorPowerOff (tag : Word) (replay : Bool) : Holds K (execSensorPowerOff tag replay s) := by
  refine .next (h.takeRecord hs fun u hu r => ?_)
  split
  · exact h.finishRecord hu _ (.inl r)
  · exact h.follow (h.finishRecord (h.removePower hu) _ (.inl r.removePower))

theorem Sustained.execSensorPowerOn (tag : Word) (replay : Bool) : Holds K (execSensorPowerOn tag replay s) := by
  refine .next (h.takeRecord hs fun u hu r => ?_)
  have joins : K (u.hold { tag := tag, work := .power false replay true }) :=
    h.keeps hu (.hold _ r fun a ha => by simp [Work.address] at ha)
  split
  · rename_i off
    exact h.powerUp hu r off replay tag false false
  · exact joins
  · exact joins
  · exact h.finishRecord hu _ (.inl r)

theorem Sustained.execSensorPowerCycle (tag : Word) (replay : Bool) : Holds K (execSensorPowerCycle tag replay s) := by
  refine .next (h.takeRecord hs fun u hu r => ?_)
  dsimp only
  split
  · rename_i off
    exact h.powerUp hu r off replay tag true false
  · exact h.powerUp (h.removePower hu) r.removePower rfl replay tag true false

theorem Sustained.execFlushStaged (tag : Word) : Holds K (execFlushStaged tag s) := by
  refine .next (h.takeRecord hs fun u hu r => ?_)
  split
  · exact h.finishRecord hu _ (.inl r)
  · exact h.follow (h.keeps hu (.hold _ r fun a ha => by simp [Work.address] at ha))

theorem Sustained.execDiscardStaged (tag : Word) : Holds K (execDiscardStaged tag s) := by
  refine .next (h.takeRecord hs fun u hu r => ?_)
  have discarded := h.keeps hu (.discardWaiting u)
  exact h.follow (h.gapEvaluateAll (h.finishRecord discarded _ (.inl (r.of_unchanged (discardWaiting_frame u)))))

theorem Sustained.execStopTag (tag request : Word) (k : StopKind) : Holds K (execStopTag tag request k s) := by
  refine .next (h.takeRecord hs fun u hu r => ?_)
  split
  · exact h.finishRecord hu _ (.inl r)
  · rename_i t ht
    exact h.follow (h.finishRecord (h.stopByTag hu request k ht) _ (.inl (r.of_unchanged (stopByTag_frame request k u t ht))))

theorem Sustained.execStopAll (tag request : Word) (k : StopKind) : Holds K (execStopAll tag request k s) :=
  .next (h.takeRecord hs fun u hu r => h.follow (h.captureTest
    (h.finishRecord (h.stopAllRequests hu k) _ (.inl (r.of_unchanged (stopAllRequests_frame k u))))))

/-! ## Frames and requests -/

theorem Sustained.execFrameBegin : Holds K (execFrameBegin s) := by
  refine .next ?_
  split
  · exact hs
  · rename_i e r begins
    have begun := h.keeps hs (.beginFrame e r begins)
    exact h.updHead (h.untouched begun) _

theorem Sustained.filteredTransition : K s.filteredTransition := by
  have taken := h.keeps hs (.filtered s)
  unfold State.filteredTransition
  dsimp only
  split
  · exact taken
  · split
    · exact taken
    · exact taken
    · split
      · exact h.follow (h.startEvent taken _)
      · exact taken
    · split
      · exact h.follow (h.startEvent taken _)
      · exact h.follow (h.endEvent taken)

theorem Sustained.execTriggerTransition (p : TriggerStep) : Holds K (execTriggerTransition p s) := by
  refine .next ?_
  split
  · exact h.keeps hs (.pinChanges s _)
  · split
    · exact h.filteredTransition hs
    · exact hs

theorem Sustained.execIntervalTick : Holds K (execIntervalTick s) := by
  refine .next ?_
  split
  · split
    · exact h.follow (h.startEvent (h.untouched hs) _)
    · exact hs
  · exact hs

theorem Sustained.execTriggerTimeoutExpiry (c : CtxId) : Holds K (execTriggerTimeoutExpiry c s) := by
  refine .next ?_
  split
  · exact hs
  · split
    · exact h.follow (h.closeFrame hs c _)
    · exact hs

theorem Sustained.execLeadExpiry (c : CtxId) : Holds K (execLeadExpiry c s) := by
  refine .next ?_
  split
  · rename_i hf hr
    split
    · rename_i lead
      exact h.follow (h.enterExposing hs _ (by rw [blocksFlush_of_ctx hf]; exact Frame.blocksFlush_of_phase lead.1))
    · exact hs
  · exact hs

theorem Sustained.execExposureTimerExpiry (c : CtxId) : Holds K (execExposureTimerExpiry c s) := by
  refine .next ?_
  split
  · exact hs
  · rename_i f hf
    split
    · rename_i exposing
      have stopped : K (s.updCtx c fun f => { f with expTimer := none }) := h.updCtx_same hs c _
      dsimp only
      split
      · exact stopped
      · refine h.follow (h.exposureWouldEnd stopped (blocksFlush_updCtx_same ?_))
        rw [blocksFlush_of_ctx hf]
        exact Frame.blocksFlush_of_phase exposing.1
    · exact hs

theorem Sustained.execFramePost (c : CtxId) : Holds K (execFramePost c s) := by
  refine .next ?_
  split
  · exact hs
  · rename_i e f posts
    have posted := h.keeps hs (.postFrame c e f posts)
    refine h.follow (h.updHead ?_ _)
    cases c <;> exact h.untouched posted

theorem Sustained.execRequestEnd : Holds K (execRequestEnd s) := by
  refine .next ?_
  split
  · rename_i ends
    split
    · exact hs
    · rename_i e rest hq
      exact h.captureTest (h.becomeActive (h.keeps hs (.dequeue e rest ends hq)))
  · exact hs

/-! ## The pixel stream -/

theorem Sustained.execFrameStart (number : Byte) : Holds K (execFrameStart number s) := by
  refine .next ?_
  split
  · rename_i c _ _
    have numbered := h.updCtx_same hs c fun f => { f with sensorFrame := some number }
    exact h.untouched numbered
  · rename_i c _ _
    exact h.endReadout (h.updCtx_same hs c Frame.flagSequence) _ c
  · exact h.countStray hs

theorem Sustained.execLine (number : Half) (pixels : List Half) (check : Half) :
    Holds K (execLine number pixels check s) := by
  refine .next ?_
  split
  · exact h.receiveLine hs _ _ _ _
  · exact h.countStray hs

theorem Sustained.execFrameEnd (count : Half) : Holds K (execFrameEnd count s) := by
  refine .next ?_
  split
  · rename_i c _ _
    have flagged : K (if s.recv.expected < s.lines ∨ count.toNat ≠ s.lines then s.updCtx c Frame.flagSequence else s) := by
      split
      · exact h.updCtx_same hs c _
      · exact hs
    exact h.endReadout (h.updCtx_same flagged c _) _ c
  · exact h.countStray hs

theorem Sustained.execFrameTimerExpiry : Holds K (execFrameTimerExpiry s) := by
  refine .next ?_
  split
  · exact hs
  · exact hs
  · rename_i c _ _
    split
    · exact h.endReadout (h.updCtx_same hs c fun f => { f with timedOut := true }) _ c
    · exact hs

theorem Sustained.execSliceOffer : Holds K (execSliceOffer s) := by
  refine .next ?_
  split
  · exact hs
  · exact h.offerSlice (h.untouched hs) _

theorem Sustained.execSliceWriteDone : Holds K (execSliceWriteDone s) := by
  refine .next ?_
  split
  · exact hs
  · rename_i sl rest hl
    have gone := h.keeps hs (.written sl rest hl)
    dsimp only
    split
    · exact gone
    · exact h.updCtx_same (h.unchanged gone (issue_frame _ _)) sl.ctx _
        (assignments := fun f => by simp [Frame.addWritten])

/-! ## Timers -/

theorem Sustained.execCoalescingTimerExpiry : Holds K (execCoalescingTimerExpiry s) := by
  refine .next ?_
  split
  · exact h.raise (h.untouched hs) _
  · exact hs

theorem Sustained.execAckTimeout : Holds K (execAckTimeout s) := by
  refine .next ?_
  split
  · exact h.transactionEnds hs false 0
  · exact hs

theorem Sustained.execSettleTimerExpiry : Holds K (execSettleTimerExpiry s) := by
  refine .next ?_
  split
  · rename_i settles
    dsimp only
    split
    · exact h.follow (h.keeps hs (.settleToReplay settles.1))
    · rw [becomeReady_eq]
      exact h.follow (h.reportReady (h.gapEvaluateAll (h.keeps hs (.settleToReady settles.1))) _ _)
  · exact hs

/-! ## Every step -/

theorem Sustained.exec (i : Instr) : Holds K (exec i s) := by
  cases i with
  | powerOn pin => exact .next (h.keeps hs (.partReset s false pin))
  | functionReset pin => exact .next (h.keeps hs (.partReset s false pin))
  | partReset enable pin => exact .next (h.keeps hs (.partReset s true pin))
  | enableSet => exact h.execEnableSet hs
  | enableClear => exact h.execEnableClear hs
  | intCauseWrite value => exact .next (h.keeps hs (.causes s _ _))
  | intMaskWrite value => exact .next (h.keeps hs (.causes s _ _))
  | msiEnableWrite enabled => exact .next (h.keeps hs (.messages s enabled))
  | setupAddrWrite half value => exact h.execSetupAddrWrite hs half value
  | tailWrite ring value => exact h.execTailWrite hs ring value
  | cplHeadWrite value => exact h.execCplHeadWrite hs value
  | registerWriteOther offset width value => exact .next hs
  | setupReadDone data => exact h.execSetupReadDone hs data
  | setupReadError reason => exact .next (h.readFails hs .setup)
  | hostReadTimeout read => exact h.execHostReadTimeout hs read
  | fetchReadError ring reason => exact .next (h.readFails hs (.ring ring))
  | drainFinish => exact h.execDrainFinish hs
  | creditGrant => exact .next (h.follow (h.grantPass grantOrder hs))
  | captureRecordRead data => exact h.execCaptureRecordRead hs data
  | bufferEntryRead data => exact h.execBufferEntryRead hs data
  | mark tag => exact .next (h.refuse hs _)
  | badRecord kind tag => exact .next (h.refuse hs _)
  | windowSet tag number window => exact h.execWindowSet hs tag number window
  | windowClear tag number =>
    exact .next (h.takeRecord hs fun _ hu r => h.setWindows hu r (windowClearResult_windows _ _) _)
  | orderSet tag values => exact h.execOrderSet hs tag values
  | sensorWriteNow tag address value =>
    exact .next (h.takeRecord hs fun _ hu r => h.checkAddress hu r _ _ _ fun below =>
      h.sensorAccess hu r _ _ fun a ha => Option.some.inj ha ▸ below)
  | sensorWriteStaged tag address value =>
    exact .next (h.takeRecord hs fun _ hu r => h.checkAddress hu r _ _ _ fun below => h.stage hu r _ _ _ below)
  | sensorRead tag address =>
    exact .next (h.takeRecord hs fun _ hu r => h.checkAddress hu r _ _ _ fun below =>
      h.sensorAccess hu r _ _ fun a ha => Option.some.inj ha ▸ below)
  | sensorPowerOff tag replay => exact h.execSensorPowerOff hs tag replay
  | sensorPowerOn tag replay => exact h.execSensorPowerOn hs tag replay
  | sensorPowerCycle tag replay => exact h.execSensorPowerCycle hs tag replay
  | flushStaged tag => exact h.execFlushStaged hs tag
  | discardStaged tag => exact h.execDiscardStaged hs tag
  | stopTag tag request mode => exact h.execStopTag hs tag request mode
  | stopAll tag request mode => exact h.execStopAll hs tag request mode
  | frameBegin => exact h.execFrameBegin hs
  | triggerTransition p => exact h.execTriggerTransition hs p
  | intervalTick => exact h.execIntervalTick hs
  | triggerTimeoutExpiry ctx => exact h.execTriggerTimeoutExpiry hs ctx
  | leadExpiry ctx => exact h.execLeadExpiry hs ctx
  | exposureTimerExpiry ctx => exact h.execExposureTimerExpiry hs ctx
  | frameStart number => exact h.execFrameStart hs number
  | line number pixels check => exact h.execLine hs number pixels check
  | frameEnd count => exact h.execFrameEnd hs count
  | unknownPacket => exact .next (h.countStray hs)
  | frameTimerExpiry => exact h.execFrameTimerExpiry hs
  | sliceOffer => exact h.execSliceOffer hs
  | sliceWriteDone => exact h.execSliceWriteDone hs
  | framePost ctx => exact h.execFramePost hs ctx
  | requestEnd => exact h.execRequestEnd hs
  | coalescingTimerExpiry => exact h.execCoalescingTimerExpiry hs
  | sensorAck value => exact .next (h.transactionEnds hs true value)
  | ackTimeout => exact h.execAckTimeout hs
  | settleTimerExpiry => exact h.execSettleTimerExpiry hs
  | sensorPowerBadField tag action => exact .next (h.refuse hs _)

theorem Sustained.idle : K s.idle := by
  unfold State.idle
  split
  · exact h.untouched hs
  · split
    · rename_i stands
      exact h.follow (h.replayNext hs (waits := s.sensor.replayWaits) (.inr (.inr ⟨stands, rfl⟩)))
    · exact h.untouched hs

/-- An invariant that every change keeps is kept by every step. -/
theorem Sustained.step {t : State} (ht : step s = .next t) : K t := by
  unfold Machine.step at ht
  split at ht
  · cases ht
    exact h.idle hs
  · exact h.exec (h.untouched hs) _ t ht

end

end Sys2Proof.Machine
end

section
/-! SUPPORT for O57, O59 and O60. A part at rest holds no work: every change keeps `State.restForm`. Most changes come only
while the part is at work, which what they ask for says (`State.restForm.busy_of`). -/

set_option Elab.async false

namespace Sys2Proof.Machine

open Sys2Proof

/-- The work that a part at rest holds none of (R173). -/
def State.work (s : State) :
    List Entry × CreditState × (Option Frame × Option Frame) × List CacheEntry × List Staged × Engine ×
      Option ReadInProgress × Option ReadInProgress × Option ReadInProgress :=
  (s.sched.queue, s.sched.credit, (s.seq.ctx0, s.seq.ctx1), s.bufs.cache, s.sensor.staged, s.engine, s.ring.ctlRead,
    s.ring.capRead, s.ring.bufRead)

theorem restForm_iff (s : State) : s.restForm ↔
    (s.atRest → s.work = State.reset.work) ∧ (s.ring.setupRead.isSome = true → s.link.part = .starting) ∧
      (s.engine.job.isSome = true → s.engine.mode = .executing) := by
  simp only [State.restForm, State.work, Prod.mk.injEq, State.reset, and_assoc]

theorem atRest_of_part {s t : State} (h : t.link.part = s.link.part) : t.atRest ↔ s.atRest := by
  rw [State.atRest, State.atRest, h]

theorem work_of_unchanged {ps : List Part} {s t : State} (h : unchangedBut ps s t)
    (hps : ([Part.queue, .capCredit, .contexts, .cache, .staged, .engine, .ctlRing, .capRing, .bufRing].all
      fun p => !ps.contains p) = true := by decide) : t.work = s.work := by
  simp only [List.all_cons, List.all_nil, Bool.and_true, Bool.and_eq_true, Bool.not_eq_true'] at hps
  obtain ⟨hq, hcc, hc, hb, hst, he, h1, h2, h3⟩ := hps
  have queue := h.get .queue hq
  have credit := h.get .capCredit hcc
  have contexts := h.get .contexts hc
  have cache := h.get .cache hb
  have staged := h.get .staged hst
  have engine := h.get .engine he
  have ctl := h.get .ctlRing h1
  have cap := h.get .capRing h2
  have buf := h.get .bufRing h3
  simp only [Part.same, Prod.mk.injEq] at queue credit contexts cache staged engine ctl cap buf
  simp [State.work, queue, credit, contexts, cache, staged, engine, ctl, cap, buf]

theorem State.restForm.job {s : State} (hs : s.restForm) : s.engine.job.isSome = true → s.engine.mode = .executing :=
  ((restForm_iff s).mp hs).2.2

/-- A change that leaves the part state and the engine, and the work of a part at rest. -/
theorem State.restForm.of_work {s t : State} (hs : s.restForm) {ps : List Part} (frame : unchangedBut ps s t)
    (work : s.atRest → t.work = s.work) (engine : ps.contains .engine = false := by decide)
    (part : ps.contains .partState = false := by decide) (read : ps.contains .setupRead = false := by decide) :
    t.restForm := by
  obtain ⟨rest, setup, executing⟩ := (restForm_iff s).mp hs
  have samePart := frame.get .partState part
  have sameRead := frame.get .setupRead read
  have sameEngine := frame.get .engine engine
  simp only [Part.same] at samePart sameRead sameEngine
  refine (restForm_iff t).mpr ⟨fun h => ?_, by rwa [sameRead, samePart], by rwa [sameEngine]⟩
  have h := (atRest_of_part samePart).mp h
  rw [work h, rest h]

theorem State.restForm.of_unchanged {s t : State} (hs : s.restForm) {ps : List Part} (frame : unchangedBut ps s t)
    (hps : ([Part.queue, .capCredit, .contexts, .cache, .staged, .engine, .ctlRing, .capRing, .bufRing].all
      fun p => !ps.contains p) = true := by decide) (engine : ps.contains .engine = false := by decide)
    (part : ps.contains .partState = false := by decide) (read : ps.contains .setupRead = false := by decide) :
    t.restForm :=
  hs.of_work frame (fun _ => work_of_unchanged frame hps) engine part read

/-- A change of a part at work. -/
theorem State.restForm.of_engine {s t : State} (hs : s.restForm) (busy : ¬ s.atRest) {ps : List Part}
    (frame : unchangedBut ps s t) (job : t.engine.job.isSome = true → t.engine.mode = .executing)
    (part : ps.contains .partState = false := by decide) (read : ps.contains .setupRead = false := by decide) :
    t.restForm := by
  obtain ⟨-, setup, -⟩ := (restForm_iff s).mp hs
  have samePart := frame.get .partState part
  have sameRead := frame.get .setupRead read
  simp only [Part.same] at samePart sameRead
  exact (restForm_iff t).mpr
    ⟨fun h => absurd ((atRest_of_part samePart).mp h) busy, by rwa [sameRead, samePart], job⟩

/-- A change of a part at work that leaves the engine. -/
theorem State.restForm.of_busy {s t : State} (hs : s.restForm) (busy : ¬ s.atRest) {ps : List Part}
    (frame : unchangedBut ps s t) (engine : ps.contains .engine = false := by decide)
    (part : ps.contains .partState = false := by decide) (read : ps.contains .setupRead = false := by decide) :
    t.restForm :=
  hs.of_engine busy frame (by rw [show t.engine = s.engine from frame.get .engine engine]; exact hs.job) part read

/-- A part that holds other work than none is at work. -/
theorem State.restForm.busy_of {s : State} (hs : s.restForm) (h : s.work ≠ State.reset.work) : ¬ s.atRest :=
  fun rest => h (((restForm_iff s).mp hs).1 rest)

theorem busy_of_ctx {s : State} (hs : s.restForm) {c : CtxId} {f : Frame} (hf : s.ctx c = some f) : ¬ s.atRest := by
  refine hs.busy_of fun h => ?_
  simp only [State.work, State.reset, Prod.mk.injEq] at h
  obtain ⟨-, -, ⟨h0, h1⟩, -⟩ := h
  cases c
  · exact absurd (h0.symm.trans hf) (by simp)
  · exact absurd (h1.symm.trans hf) (by simp)

theorem busy_of_queue {s : State} (hs : s.restForm) {e : Entry} {rest : List Entry} (hq : s.sched.queue = e :: rest) :
    ¬ s.atRest := hs.busy_of (by simp [State.work, State.reset, hq])

theorem busy_of_staged {s : State} (hs : s.restForm) (h : s.sensor.staged ≠ []) : ¬ s.atRest :=
  hs.busy_of (by simp [State.work, State.reset, h])

theorem busy_of_inRecord {s : State} (h : InRecord State.restForm s) : ¬ s.atRest := by
  obtain ⟨u, hu, read, -, part⟩ := h
  have busy : ¬ u.atRest := hu.busy_of fun hw => by
    simp only [State.work, State.reset, Prod.mk.injEq] at hw
    simp [hw] at read
  rwa [atRest_of_part part]

theorem queue_of_frameToBegin {s : State} {e : Entry} {r : CaptureRequest} (h : s.frameToBegin = some (e, r)) :
    ∃ rest, s.sched.queue = e :: rest := by
  unfold State.frameToBegin at h
  split at h
  · rename_i e' rest r' hq hr
    split at h
    · simp only [Option.some.injEq, Prod.mk.injEq] at h
      exact ⟨rest, h.1 ▸ hq⟩
    · cases h
  · cases h

theorem captureTest_of_atRest {s : State} (h : s.atRest) : s.captureTest = s := by
  unfold State.captureTest State.captureMayFetch
  obtain h | h | h := h <;> simp [h]

theorem engineTest_of_atRest {s : State} (h : s.atRest) : s.engineTest = s := by
  unfold State.engineTest
  obtain h | h | h := h <;> simp [h]

theorem bufferTest_of_atRest {s : State} (h : s.atRest) : s.bufferTest = s := by
  unfold State.bufferTest
  obtain h | h | h := h <;> simp [h]

/-- In WAIT_CREDIT and EXECUTING the tests leave the mode; an engine that leaves IDLE held no record. -/
theorem engineTest_job {s : State} (hs : s.engine.job.isSome = true → s.engine.mode = .executing) :
    s.engineTest.engine.job.isSome = true → s.engineTest.engine.mode = .executing := by
  unfold State.engineTest
  split
  · split
    · rename_i idle
      exact fun h => absurd (hs h) (by simp [idle])
    · split <;> exact hs
    · exact hs
  · exact hs

theorem engineDrain_job {s : State} (hs : s.engine.job.isSome = true → s.engine.mode = .executing) :
    s.engineDrain.engine.job.isSome = true → s.engineDrain.engine.mode = .executing := by
  unfold State.engineDrain
  split
  · rename_i waits
    exact fun h => absurd (hs h) (by simp [waits.1])
  · exact hs

theorem discardWaiting_staged (s : State) : s.discardWaiting.sensor.staged = s.sensor.staged.filter Staged.inProgress :=
  (foldHandOver_frame _ _ fun e => .control (stagedResult e .discarded none)).get .staged

theorem closeFlush_staged (s : State) : s.closeFlush.sensor.staged = s.sensor.staged := (closeFlush_frame s).get .staged

theorem cutPort_staged_nil {s : State} (h : s.sensor.staged = []) : s.cutPort.sensor.staged = [] := by
  have left : s.closeLeftFlush.sensor.staged = [] := ((closeLeftFlush_frame s).get .staged).trans h
  unfold State.cutPort
  dsimp only
  split
  · exact left
  · split
    · rename_i hl
      exact absurd (hl.symm.trans left) (by simp)
    · exact (closeFlush_staged _).trans left

theorem work_of_staged {ps : List Part} {s t : State} (h : unchangedBut ps s t) (staged : t.sensor.staged = s.sensor.staged)
    (hps : ([Part.queue, .capCredit, .contexts, .cache, .engine, .ctlRing, .capRing, .bufRing].all
      fun p => !ps.contains p) = true := by decide) : t.work = s.work := by
  simp only [List.all_cons, List.all_nil, Bool.and_true, Bool.and_eq_true, Bool.not_eq_true'] at hps
  obtain ⟨hq, hcc, hc, hb, he, h1, h2, h3⟩ := hps
  have queue := h.get .queue hq
  have credit := h.get .capCredit hcc
  have contexts := h.get .contexts hc
  have cache := h.get .cache hb
  have engine := h.get .engine he
  have ctl := h.get .ctlRing h1
  have cap := h.get .capRing h2
  have buf := h.get .bufRing h3
  simp only [Part.same, Prod.mk.injEq] at queue credit contexts cache engine ctl cap buf
  simp [State.work, queue, credit, contexts, cache, staged, engine, ctl, cap, buf]

theorem enterHalted_restForm (cause : HaltCause) (d : Detail) (s : State) : (s.enterHalted cause d).restForm :=
  ⟨fun _ => ⟨rfl, rfl, rfl, rfl, rfl, rfl, rfl, rfl, rfl, rfl⟩, fun h => absurd h Bool.false_ne_true,
    fun h => absurd h Bool.false_ne_true⟩

theorem enterStarting_restForm {s : State} (hs : s.restForm) (off : s.link.part = .disabled) : s.enterStarting.restForm := by
  have staged : s.sensor.staged = [] := (hs.1 (.inl off)).2.2.2.2.2.1
  unfold State.enterStarting
  dsimp only
  have raised : (if s.cpl.unsignalled ≠ 0 then s.raise Causes.onlyCompletion else s).sensor.staged = [] := by
    split <;> exact staged
  generalize (if s.cpl.unsignalled ≠ 0 then s.raise Causes.onlyCompletion else s) = u at raised ⊢
  split
  · exact ⟨fun _ => ⟨rfl, rfl, rfl, rfl, rfl, raised, rfl, rfl, rfl, rfl⟩, fun _ => rfl, fun h => absurd h Bool.false_ne_true⟩
  · exact enterHalted_restForm _ _ _

theorem drainLeft_restForm {s : State} (hs : s.restForm) (h : s.drained = true) : s.drainLeft.restForm := by
  obtain ⟨part, queue, -, ctx0, ctx1, cache, staged, idle, engineCredit, capCredit, ctl, cap, buf⟩ := (drained_iff s).mp h
  rw [drainLeft_eq h]
  have noJob : s.engine.job = none := by
    by_contra hj
    have executing := hs.job (Option.isSome_iff_ne_none.mpr hj)
    rw [idle] at executing
    cases executing
  have engine : s.engine = State.reset.engine := by
    show s.engine = ⟨.idle, .none, none⟩
    rw [← idle, ← engineCredit, ← noJob]
  have read : s.ring.setupRead = none := by
    by_contra hr
    have starting := hs.2.1 (Option.isSome_iff_ne_none.mpr hr)
    rw [part] at starting
    cases starting
  exact ⟨fun _ => ⟨queue, capCredit, ctx0, ctx1, cache, staged, engine, ctl, cap, buf⟩,
    fun hr => absurd hr (by simp [read]), fun hj => absurd hj (by simp [noJob])⟩

theorem serve_nil (as : List Assignment) : (serve as []).2.1 = [] := by
  induction as with
  | nil => rfl
  | cons a rest ih =>
    unfold serve
    split
    · exact ih
    · rfl

theorem queue_of_frameToPost {s : State} {c : CtxId} {e : Entry} {f : Frame} (h : s.frameToPost c = some (e, f)) :
    (∃ rest, s.sched.queue = e :: rest) ∧ s.ctx c = some f ∧ f.creditHeld = true := by
  unfold State.frameToPost at h
  split at h
  · rename_i e' rest f' hq hf
    split at h
    · rename_i posts
      simp only [Option.some.injEq, Prod.mk.injEq] at h
      obtain ⟨rfl, rfl⟩ := h
      exact ⟨⟨rest, hq⟩, hf, posts.2.2.1⟩
    · cases h
  · cases h

/-- A part at rest holds no work, whatever changes. -/
theorem restForm_sustained : Sustained State.restForm := ⟨fun {ps s t} hs hc => by
  have frame := hc.unchanged
  have job := hs.job
  have read : s.ring.ctlRead.isSome = true ∨ s.ring.capRead.isSome = true ∨ s.ring.bufRead.isSome = true → ¬ s.atRest :=
    fun h => hs.busy_of fun hw => by simp [State.work, State.reset] at hw; simp [hw] at h
  cases hc
  case captureTest => exact hs.of_work frame fun rest => by rw [captureTest_of_atRest rest]
  case engineTest =>
    by_cases rest : s.atRest
    · rwa [engineTest_of_atRest rest]
    · exact hs.of_engine rest frame (engineTest_job job)
  case bufferTest => exact hs.of_work frame fun rest => by rw [bufferTest_of_atRest rest]
  case engineDrain =>
    by_cases rest : s.atRest
    · have idle : s.engine.mode ≠ .waitCredit := by rw [(hs.1 rest).2.2.2.2.2.2.1]; simp [State.reset]
      rwa [show s.engineDrain = s by simp [State.engineDrain, idle]]
    · exact hs.of_engine rest frame (engineDrain_job job)
  case partReset =>
    exact ⟨fun _ => ⟨rfl, rfl, rfl, rfl, rfl, rfl, rfl, rfl, rfl, rfl⟩, fun h => absurd h Bool.false_ne_true,
      fun h => absurd h Bool.false_ne_true⟩
  case enterHalted => exact enterHalted_restForm _ _ _
  case enterStarting off => exact enterStarting_restForm hs off
  case leaveHalted halted =>
    obtain ⟨work, starting, -⟩ := hs
    exact ⟨fun _ => work (.inr (.inr halted)), fun h => absurd (halted.symm.trans (starting h)) (by simp), job⟩
  case leaveDrain drained => exact drainLeft_restForm hs drained
  case beginDrain running =>
    exact ⟨fun h => absurd h (by simp [State.atRest]), fun h => absurd (running.symm.trans (hs.2.1 h)) (by simp), job⟩
  case takeSetup h _ =>
    refine ⟨fun rest => ?_, fun h => absurd h Bool.false_ne_true, job⟩
    obtain rfl | rfl := h <;> simp [State.atRest, State.setupTaken] at rest
  case takeRecord h => exact hs.of_engine (read (.inl h)) frame fun _ => rfl
  case joinQueue h _ => exact hs.of_busy (read (.inr (.inl h))) frame
  case joinCache h => exact hs.of_busy (read (.inr (.inr h))) frame
  case finish r h =>
    refine hs.of_engine ?_ frame fun h => absurd h Bool.false_ne_true
    obtain h | h := h
    · exact busy_of_inRecord h
    · exact hs.busy_of fun hw => by simp [State.work, State.reset] at hw; simp [hw] at h
  case hold h =>
    refine hs.of_engine (busy_of_inRecord h) frame fun _ => ?_
    obtain ⟨u, -, -, engine, -⟩ := h
    show s.engine.mode = _
    rw [engine]
  case stage h _ => exact hs.of_engine (busy_of_inRecord h) frame fun h => absurd h Bool.false_ne_true
  case grantCapture asked _ => exact hs.of_busy (hs.busy_of (by simp [State.work, State.reset, asked])) frame
  case grantEngine asked _ =>
    exact hs.of_engine (hs.busy_of fun hw => by simp [State.work, State.reset] at hw; simp [hw] at asked) frame job
  case grantFrame hf _ => exact hs.of_busy (busy_of_ctx hs hf) frame
  case returnEntry hc _ => exact hs.of_busy (hs.busy_of (by simp [State.work, State.reset, hc])) frame
  case serve as =>
    refine hs.of_work frame fun rest => ?_
    have cache : s.bufs.cache = [] := (hs.1 rest).2.2.2.2.1
    simp only [State.work, cache, serve_nil]
  case goes hf _ => exact hs.of_busy (busy_of_ctx hs hf) frame
  case served hf => exact hs.of_busy (busy_of_ctx hs hf) frame
  case beginFrame h =>
    obtain ⟨rest, hq⟩ := queue_of_frameToBegin h
    exact hs.of_busy (busy_of_queue hs hq) frame
  case postFrame h =>
    obtain ⟨⟨rest, hq⟩, -⟩ := queue_of_frameToPost h
    exact hs.of_busy (busy_of_queue hs hq) frame
  case queue q h =>
    refine hs.of_work frame fun rest => ?_
    have queue : s.sched.queue = [] := (hs.1 rest).1
    have empty : q = [] := by simpa [queue] using h
    simp only [State.work, queue, empty]
  case dequeue hq => exact hs.of_busy (busy_of_queue hs hq) frame
  case beginFlush staged => exact hs.of_busy (busy_of_staged hs staged) frame
  case popStaged staged => exact hs.of_busy (busy_of_staged hs (by simp [staged])) frame
  case writeNext staged => exact hs.of_busy (busy_of_staged hs (by simp [staged])) frame
  case discardWaiting =>
    refine hs.of_work frame fun rest => work_of_staged frame ?_
    rw [discardWaiting_staged, (hs.1 rest).2.2.2.2.2.1]
    rfl
  case cutPower =>
    refine hs.of_work frame fun rest => work_of_staged frame ?_
    have staged : s.sensor.staged = [] := (hs.1 rest).2.2.2.2.2.1
    rw [staged]
    exact cutPort_staged_nil staged
  all_goals exact hs.of_unchanged frame⟩

end Sys2Proof.Machine
end

section
/-! SUPPORT for O60, O21 and O48. The reference counts of the Window Table: what a joining and an ending request add and take
(R8, R18), and that a valid request names different windows of the table (Table 8). -/

set_option Elab.async false

namespace Sys2Proof.Machine

open Sys2Proof

/-! ## Counting references -/

theorem windowAt_set (ws : List WindowEntry) (m n : Nat) (e : WindowEntry) :
    windowAt (ws.set m e) n = if m = n ∧ m < ws.length then e else windowAt ws n := by
  simp only [windowAt, List.getD_eq_getElem?_getD, List.getElem?_set]
  by_cases hmn : m = n
  · subst hmn
    by_cases hm : m < ws.length <;> simp [hm]
  · simp [hmn]

theorem setWindow_refs (n : Nat) (w : Option WindowDef) (ws : List WindowEntry) (m : Nat) :
    (windowAt (setWindow n w ws) m).refs = (windowAt ws m).refs := by
  rw [setWindow, windowAt_set]
  split
  · rename_i h
    rw [h.1]
  · rfl

@[simp] theorem countRefs_length (list : List Nat) (g : Nat → Nat) (ws : List WindowEntry) :
    (countRefs list g ws).length = ws.length := by
  induction list generalizing ws with
  | nil => rfl
  | cons n rest ih => simpa [countRefs] using ih (ws.set n { windowAt ws n with refs := g (windowAt ws n).refs })

theorem countRefs_window (list : List Nat) (g : Nat → Nat) (ws : List WindowEntry) (n : Nat) :
    (windowAt (countRefs list g ws) n).window = (windowAt ws n).window := by
  induction list generalizing ws with
  | nil => rfl
  | cons m rest ih =>
    refine (ih _).trans ?_
    rw [windowAt_set]
    split
    · rename_i h
      rw [h.1]
    · rfl

theorem countRefs_refs {list : List Nat} (g : Nat → Nat) {ws : List WindowEntry} (distinct : list.Nodup)
    (inside : ∀ m ∈ list, m < ws.length) (n : Nat) :
    (windowAt (countRefs list g ws) n).refs = if n ∈ list then g (windowAt ws n).refs else (windowAt ws n).refs := by
  induction list generalizing ws with
  | nil => rfl
  | cons m rest ih =>
    obtain ⟨fresh, distinct⟩ := List.nodup_cons.mp distinct
    have hm : m < ws.length := inside m (by simp)
    have step := ih (ws := ws.set m { windowAt ws m with refs := g (windowAt ws m).refs }) distinct
      (by simpa using fun a ha => inside a (by simp [ha]))
    refine step.trans ?_
    rw [windowAt_set]
    by_cases hmn : m = n
    · subst hmn
      simp [fresh, hm]
    · simp [hmn, Ne.symm hmn]

/-! ## The windows of a valid request -/

theorem windowAt_lt {ws : List WindowEntry} {n : Nat} (h : (windowAt ws n).window ≠ none) : n < ws.length := by
  by_contra hn
  exact h (by simp [windowAt, WindowEntry.clear, List.getElem?_eq_none (Nat.le_of_not_lt hn)])

theorem checkListed_eq_none {ws : List WindowEntry} {seen list : List Nat} (h : checkListed ws seen list = none) :
    list.Nodup ∧ (∀ n ∈ list, n ∉ seen ∧ n < 16 ∧ n < ws.length) := by
  induction list generalizing seen with
  | nil => simp
  | cons n rest ih =>
    unfold checkListed at h
    split at h
    · cases h
    · rename_i defined
      split at h
      · cases h
      · rename_i fresh
        obtain ⟨distinct, others⟩ := ih h
        have below : n < 16 := by omega
        have inside : n < ws.length := windowAt_lt fun hw => defined (.inr hw)
        refine ⟨List.nodup_cons.mpr ⟨fun hn => (others n hn).1 (by simp), distinct⟩, fun m hm => ?_⟩
        obtain rfl | hm := List.mem_cons.mp hm
        · exact ⟨fresh, below, inside⟩
        · obtain ⟨apart, rest⟩ := others m hm
          exact ⟨fun hs => apart (by simp [hs]), rest⟩

theorem checkCapture_windows {u : Setup} {ws : List WindowEntry} {data : List Byte} {r : CaptureRequest}
    (h : checkCapture u ws data = .ok r) : r.windows.Nodup ∧ ∀ n ∈ r.windows, n < 16 ∧ n < ws.length := by
  unfold checkCapture at h
  split at h
  · cases h
  · split at h
    · cases h
    · split at h
      · cases h
      · rename_i listed
        obtain ⟨distinct, inside⟩ := checkListed_eq_none listed
        split at h
        · cases h
        · split at h
          · cases h
          · split at h
            · cases h
            · split at h
              · cases h
              · cases h
                exact ⟨distinct, fun n hn => (inside n hn).2⟩

/-- The windows an entry pins: those of a valid request (R8). -/
theorem entryOf_windows (u : Setup) (data : List Byte) (s : State) {r : CaptureRequest}
    (h : (s.entryOf u data).request = some r) :
    r.windows.Nodup ∧ ∀ n ∈ r.windows, n < 16 ∧ n < s.cutter.windows.length := by
  unfold State.entryOf at h
  split at h
  · cases h
  · split at h
    · cases h
    · rename_i r' ok
      cases h
      exact checkCapture_windows ok

theorem clearMark_cutter (s : State) : s.clearMark.cutter = s.cutter := by
  unfold State.clearMark
  split <;> rfl

theorem clearMark_queue (s : State) : s.clearMark.sched.queue = s.sched.queue := (clearMark_frame s).get .queue

theorem joinQueue_queue (u : Setup) (data : List Byte) (s : State) :
    (s.joinQueue u data).sched.queue = s.sched.queue ++ [s.entryOf u data] := by
  show ((s.advanceRing .capture).clearMark).sched.queue ++ _ = _
  rw [clearMark_queue, show (s.advanceRing .capture).sched.queue = s.sched.queue from
    (advanceRing_frame .capture s).get .queue]

theorem joinQueue_windows (u : Setup) (data : List Byte) (s : State) :
    (s.joinQueue u data).cutter.windows =
      countRefs (((s.entryOf u data).request.map CaptureRequest.windows).getD []) (· + 1) s.cutter.windows := by
  show countRefs _ _ ((s.advanceRing .capture).clearMark).cutter.windows = _
  rw [clearMark_cutter, show (s.advanceRing .capture).cutter.windows = s.cutter.windows from
    (advanceRing_frame .capture s).get .windows]

theorem advanceRing_noRead_capture (s : State) : (s.advanceRing .capture).ring.capRead = none := by
  unfold State.advanceRing State.writeProgress State.issue
  dsimp only
  split <;> rfl

theorem advanceRing_noRead_buffer (s : State) : (s.advanceRing .buffer).ring.bufRead = none := by
  unfold State.advanceRing State.writeProgress State.issue
  dsimp only
  split <;> rfl

theorem joinQueue_capRead (u : Setup) (data : List Byte) (s : State) : (s.joinQueue u data).ring.capRead = none := by
  have ring := (clearMark_frame (s.advanceRing .capture)).get .capRing
  simp only [Part.same, Prod.mk.injEq] at ring
  exact ring.2.trans (advanceRing_noRead_capture s)

theorem advanceRing_noRead_control (s : State) : (s.advanceRing .control).ring.ctlRead = none := by
  unfold State.advanceRing State.writeProgress State.issue
  dsimp only
  split <;> rfl

theorem dequeue_queue (e : Entry) (rest : List Entry) (s : State) : (s.dequeue e rest).sched.queue = rest :=
  (handOver_frame _ _).get .queue

theorem dequeue_windows (e : Entry) (rest : List Entry) (s : State) :
    (s.dequeue e rest).cutter.windows =
      countRefs ((e.request.map CaptureRequest.windows).getD []) (· - 1) s.cutter.windows := (handOver_frame _ _).get .windows

/-! ## The reference counts under every change -/

/-- The requests of the entries. -/
def requests (q : List Entry) : List CaptureRequest := q.filterMap Entry.request

/-- `State.refsCounted` in the requests of the queue. -/
theorem refsCounted_iff (s : State) : s.refsCounted ↔
    s.cutter.windows.length = 16 ∧
      (∀ n, n < 16 → (windowAt s.cutter.windows n).refs = (requests s.sched.queue).countP fun r => decide (n ∈ r.windows)) ∧
      ∀ r ∈ requests s.sched.queue, r.windows.Nodup ∧ ∀ n ∈ r.windows, n < 16 := by
  have named : ∀ n, (s.namers n).length = (requests s.sched.queue).countP fun r => decide (n ∈ r.windows) := fun n => by
    rw [State.namers, requests, ← List.countP_eq_length_filter, List.countP_filterMap]
    exact List.countP_congr fun e _ => by cases e.request <;> simp
  have each : (∀ r ∈ requests s.sched.queue, r.windows.Nodup ∧ ∀ n ∈ r.windows, n < 16) ↔
      ∀ e ∈ s.sched.queue, ∀ r, e.request = some r → r.windows.Nodup ∧ ∀ n ∈ r.windows, n < 16 := by
    simp only [requests, List.mem_filterMap]
    exact ⟨fun h e he r hr => h r ⟨e, he, hr⟩, fun h r ⟨e, he, hr⟩ => h e he r hr⟩
  simp only [State.refsCounted, named, each]

theorem requests_of_forms {q l : List Entry} (h : q.map Entry.form = l.map Entry.form) : requests q = requests l := by
  induction q generalizing l with
  | nil =>
    obtain rfl : l = [] := by simpa using h.symm
    rfl
  | cons e rest ih =>
    cases l with
    | nil => simp at h
    | cons f more =>
      simp only [List.map_cons, List.cons.injEq] at h
      have request : e.request = f.request := by unfold Entry.request; rw [h.1]
      have rest := ih h.2
      simp only [requests] at rest
      simp [requests, List.filterMap_cons, request, rest]

theorem refsCounted_of_same {s t : State} (hs : s.refsCounted) (windows : t.cutter.windows = s.cutter.windows)
    (queue : requests t.sched.queue = requests s.sched.queue) : t.refsCounted := by
  rw [refsCounted_iff] at hs ⊢
  rwa [windows, queue]

/-- An empty queue and windows with no reference. -/
theorem refsCounted_of_free {s : State} (length : s.cutter.windows.length = 16) (queue : s.sched.queue = [])
    (refs : ∀ n, n < 16 → (windowAt s.cutter.windows n).refs = 0) : s.refsCounted := by
  rw [refsCounted_iff]
  exact ⟨length, fun n hn => by rw [refs n hn, queue]; rfl, by rw [queue]; simp [requests]⟩

theorem enterHalted_windows (cause : HaltCause) (d : Detail) (s : State) :
    (s.enterHalted cause d).cutter.windows = s.cutter.windows.map WindowEntry.unpin := by
  show s.cutOffWrite.cutter.windows.map WindowEntry.unpin = _
  rw [show s.cutOffWrite.cutter.windows = s.cutter.windows from (cutOffWrite_frame s).get .windows]

theorem enterHalted_refsCounted (cause : HaltCause) (d : Detail) {s : State} (length : s.cutter.windows.length = 16) :
    (s.enterHalted cause d).refsCounted := by
  have windows := enterHalted_windows cause d s
  refine refsCounted_of_free (by rw [windows, List.length_map, length]) rfl fun n hn => ?_
  rw [windows, windowAt, List.getD_eq_getElem?_getD, List.getElem?_map,
    List.getElem?_eq_getElem (show n < s.cutter.windows.length by omega)]
  rfl

theorem enterStarting_refsCounted {s : State} (hs : s.refsCounted) (rest : s.restForm) (off : s.link.part = .disabled) :
    s.enterStarting.refsCounted := by
  have queue : s.sched.queue = [] := (rest.1 (.inl off)).1
  obtain ⟨length, refs, -⟩ := (refsCounted_iff s).mp hs
  rw [queue] at refs
  unfold State.enterStarting
  dsimp only
  have raised : (if s.cpl.unsignalled ≠ 0 then s.raise Causes.onlyCompletion else s).cutter = s.cutter := by split <;> rfl
  generalize (if s.cpl.unsignalled ≠ 0 then s.raise Causes.onlyCompletion else s) = u at raised ⊢
  rw [← raised] at length refs
  split
  · exact refsCounted_of_free length rfl refs
  · exact enterHalted_refsCounted _ _ length

theorem joinQueue_refsCounted {s : State} (hs : s.refsCounted) (u : Setup) (data : List Byte) :
    (s.joinQueue u data).refsCounted := by
  obtain ⟨length, refs, each⟩ := (refsCounted_iff s).mp hs
  have all : requests (s.joinQueue u data).sched.queue =
      requests s.sched.queue ++ (s.entryOf u data).request.toList := by
    rw [joinQueue_queue, requests, List.filterMap_append]
    cases hr : (s.entryOf u data).request <;> simp [requests, hr]
  rw [refsCounted_iff, all, joinQueue_windows, countRefs_length]
  cases hr : (s.entryOf u data).request with
  | none => simpa using ⟨length, refs, each⟩
  | some r =>
    obtain ⟨distinct, inside⟩ := entryOf_windows u data s hr
    refine ⟨length, fun n hn => ?_, fun r' hr' => ?_⟩
    · rw [show ((some r).map CaptureRequest.windows).getD [] = r.windows from rfl,
        countRefs_refs _ distinct (fun m hm => (inside m hm).2), refs n hn, List.countP_append]
      by_cases hm : n ∈ r.windows <;> simp [hm]
    · obtain hr' | hr' := List.mem_append.mp hr'
      · exact each r' hr'
      · obtain rfl : r' = r := by simpa using hr'
        exact ⟨distinct, fun n hn => (inside n hn).1⟩

theorem dequeue_refsCounted {s : State} (hs : s.refsCounted) {e : Entry} {rest : List Entry}
    (hq : s.sched.queue = e :: rest) : (s.dequeue e rest).refsCounted := by
  obtain ⟨length, refs, each⟩ := (refsCounted_iff s).mp hs
  have all : requests s.sched.queue = e.request.toList ++ requests rest := by
    cases hr : e.request <;> simp [hq, requests, hr]
  rw [all] at refs each
  rw [refsCounted_iff, dequeue_queue, dequeue_windows, countRefs_length]
  cases hr : e.request with
  | none =>
    rw [hr] at refs each
    exact ⟨length, refs, each⟩
  | some r =>
    rw [hr] at refs each
    obtain ⟨distinct, inside⟩ := each r (by simp)
    refine ⟨length, fun n hn => ?_, fun r' hr' => each r' (by simp [hr'])⟩
    have before := refs n hn
    rw [List.countP_append] at before
    rw [show ((some r).map CaptureRequest.windows).getD [] = r.windows from rfl,
      countRefs_refs _ distinct (fun m hm => by rw [length]; exact inside m hm), before]
    by_cases hm : n ∈ r.windows <;> simp [hm]

theorem refsCounted_sustained : Sustained fun s => s.restForm ∧ s.refsCounted := restForm_sustained.and
  fun {ps s t} rest hs hc => by
    have frame := hc.unchanged
    obtain ⟨length, refs, each⟩ := (refsCounted_iff s).mp hs
    cases hc
    case partReset =>
      exact refsCounted_of_free rfl rfl (show ∀ n, n < 16 → (windowAt State.reset.cutter.windows n).refs = 0 by decide)
    case enterHalted => exact enterHalted_refsCounted _ _ length
    case enterStarting off => exact enterStarting_refsCounted hs rest off
    case joinQueue => exact joinQueue_refsCounted hs _ _
    case dequeue hq => exact dequeue_refsCounted hs hq
    case queue q h => exact refsCounted_of_same hs rfl (requests_of_forms h)
    case window n w =>
      refine (refsCounted_iff _).mpr ⟨(setWindow_length n w _).trans length, fun m hm => ?_, each⟩
      exact (setWindow_refs n w s.cutter.windows m).trans (refs m hm)
    all_goals
      exact refsCounted_of_same hs (frame.get .windows) (congrArg requests (frame.get .queue))

/-- Settles O60: every change keeps the counts in a part that at rest holds no work (`refsCounted_sustained`). -/
theorem stepKeepsReferenceCounts : Obligations.StepKeepsReferenceCounts := by
  unfold Obligations.StepKeepsReferenceCounts
  intro s t refs rest h
  exact (refsCounted_sustained.step ⟨rest, refs⟩ h).symm

end Sys2Proof.Machine
end

section
/-! SUPPORT for O59. The slots of the Completion Ring: how far a hand-over moves the tail, the run that a CPL_HEAD write
leaves (R145, R160, R164, R168), and the completion accounts with what they rest on (`Accounts`). -/

set_option Elab.async false

namespace Sys2Proof.Machine

open Sys2Proof

/-! ## Ring arithmetic -/

theorem ringDistance_eq {size start finish : Nat} (hs : start < size) (hf : finish < size) :
    ringDistance size start finish = if start ≤ finish then finish - start else finish + size - start := by
  unfold ringDistance
  rw [Nat.mod_eq_of_lt hs]
  split
  · rw [show finish + size - start = finish - start + size by omega, Nat.add_mod_right, Nat.mod_eq_of_lt (by omega)]
  · exact Nat.mod_eq_of_lt (by omega)

/-- The run from a position in range forward to the tail is the rest of the run. -/
theorem ringDistance_le {size head value tail : Nat} (hh : head < size) (hv : value < size) (ht : tail < size)
    (h : ringDistance size head value ≤ ringDistance size head tail) :
    ringDistance size value tail ≤ ringDistance size head tail := by
  rw [ringDistance_eq hh hv, ringDistance_eq hh ht] at h
  rw [ringDistance_eq hv ht, ringDistance_eq hh ht]
  split_ifs at h ⊢ <;> omega

/-- One slot on, while the ring is not full. -/
theorem ringDistance_slotBehind {u : Setup} {head : Nat} {at_ : Nat × Bool} (hh : head < u.completion.size)
    (ht : at_.1 < u.completion.size) (room : ringDistance u.completion.size head at_.1 + 1 < u.completion.size) :
    (slotBehind u at_).1 < u.completion.size ∧
      ringDistance u.completion.size head (slotBehind u at_).1 = ringDistance u.completion.size head at_.1 + 1 := by
  have below : (slotBehind u at_).1 < u.completion.size := by
    unfold slotBehind
    split
    · exact Nat.lt_of_le_of_lt (Nat.zero_le _) hh
    · show at_.1 + 1 < _
      omega
  refine ⟨below, ?_⟩
  rw [ringDistance_eq hh ht] at room ⊢
  rw [ringDistance_eq hh below]
  unfold slotBehind
  split_ifs at room ⊢ <;> simp_all <;> omega

/-- Any number of slots on, while the ring is not full. -/
theorem ringDistance_slots {u : Setup} {head : Nat} (hh : head < u.completion.size) (n : Nat) {at_ : Nat × Bool}
    (ht : at_.1 < u.completion.size) (room : ringDistance u.completion.size head at_.1 + n < u.completion.size) :
    ((slotBehind u)^[n] at_).1 < u.completion.size ∧
      ringDistance u.completion.size head ((slotBehind u)^[n] at_).1 = ringDistance u.completion.size head at_.1 + n := by
  induction n generalizing at_ with
  | zero => exact ⟨ht, rfl⟩
  | succ n ih =>
    obtain ⟨ht', step⟩ := ringDistance_slotBehind hh ht (by omega)
    rw [Function.iterate_succ_apply]
    obtain ⟨below, rest⟩ := ih ht' (by omega)
    exact ⟨below, by omega⟩

/-! ## Slots handed over -/

theorem afterSlots_eq (u : Setup) (at_ : Nat × Bool) (c : Completion) :
    afterSlots u at_ c = (slotBehind u)^[c.slotItems.length] at_ := by
  unfold afterSlots
  generalize c.slotItems = l
  induction l generalizing at_ with
  | nil => rfl
  | cons a rest ih => exact ih _

theorem next_slot (u : Setup) (now : Stamp) (c : Completion) (h : Handed) : (h.next u now c).slot = afterSlots u h.slot c := by
  unfold Handed.next
  split <;> rfl

/-- The slots of completions. -/
def slotCount (cs : List Completion) : Nat := (cs.map fun c => c.slotItems.length).sum

theorem foldNext_slot (u : Setup) (now : Stamp) (cs : List Completion) (h : Handed) :
    (cs.foldl (fun h c => h.next u now c) h).slot = (slotBehind u)^[slotCount cs] h.slot := by
  induction cs generalizing h with
  | nil => rfl
  | cons c rest ih =>
    refine (ih _).trans ?_
    rw [next_slot, afterSlots_eq, ← Function.iterate_add_apply]
    exact congrArg (fun n => (slotBehind u)^[n] h.slot) (Nat.add_comm _ _)

/-- The tail has moved past this many slots, where the ring held them; with no ring it stands. -/
def SlotsMoved (n : Nat) (s t : State) : Prop :=
  (s.ring.setup = none → t.cpl.tail = s.cpl.tail) ∧
    ∀ u, s.ring.setup = some u → s.cpl.tail < u.completion.size → s.cpl.head.toNat < u.completion.size →
      s.unfreed + n < u.completion.size → t.cpl.tail < u.completion.size ∧ t.unfreed = s.unfreed + n

theorem cplSize_of_setup {s : State} {u : Setup} (h : s.ring.setup = some u) : s.cplSize = u.completion.size := by
  simp [State.cplSize, h]

theorem SlotsMoved.of_posts {s t : State} {before : List LinkWrite} {cs : List Completion}
    (posts : ∀ u, s.ring.setup = some u → Posts u before cs s t) (unset : s.ring.setup = none → t = s)
    (setup : t.ring.setup = s.ring.setup) (head : t.cpl.head = s.cpl.head) : SlotsMoved (slotCount cs) s t := by
  refine ⟨fun h => by rw [unset h], fun u hu ht hh room => ?_⟩
  obtain ⟨-, handed, -, -⟩ := posts u hu
  have slot : (t.cpl.tail, t.cpl.phase) = (slotBehind u)^[slotCount cs] (s.cpl.tail, s.cpl.phase) :=
    (congrArg Handed.slot handed).trans (foldNext_slot u s.now cs s.handed)
  have tail : t.cpl.tail = ((slotBehind u)^[slotCount cs] (s.cpl.tail, s.cpl.phase)).1 := congrArg Prod.fst slot
  rw [State.unfreed, cplSize_of_setup hu] at room
  rw [State.unfreed, State.unfreed, cplSize_of_setup (setup.trans hu), cplSize_of_setup hu, head, tail]
  exact ringDistance_slots hh (slotCount cs) (at_ := (s.cpl.tail, s.cpl.phase)) ht room

theorem handOver_unset (c : Completion) {s : State} (h : s.ring.setup = none) : s.handOver c = s := by
  simp [State.handOver, h]

theorem handOver_slots (c : Completion) (s : State) : SlotsMoved c.slotItems.length s (s.handOver c) := by
  have frame := handOver_frame c s
  have moved := SlotsMoved.of_posts (s := s) (t := s.handOver c) (before := []) (cs := [c])
    (fun u hu => handOver_posts u c s hu) (handOver_unset c) (frame.get .setup) (frame.get .cplHead)
  simpa [slotCount] using moved

theorem foldHandOver_slots (l : List Staged) (r : Staged → ControlResult) (s : State) :
    SlotsMoved l.length s (l.foldl (fun s e => s.handOver (.control (r e))) s) := by
  have frame := foldHandOver_frame l s fun e => .control (r e)
  have unset : s.ring.setup = none → l.foldl (fun s e => s.handOver (.control (r e))) s = s := fun h => by
    induction l with
    | nil => rfl
    | cons e rest ih => rw [List.foldl_cons, handOver_unset _ h, ih (foldHandOver_frame rest s fun e => .control (r e))]
  have moved := SlotsMoved.of_posts (fun u hu => foldHandOver_posts u l (fun e => .control (r e)) s hu) unset
    (frame.get .setup) (frame.get .cplHead)
  have count : slotCount (l.map fun e => .control (r e)) = l.length := by
    simp [slotCount, Completion.slotItems, Function.comp_def]
  rwa [count] at moved

/-- A change that leaves the Completion Ring. -/
theorem SlotsMoved.of_unchanged {s t : State} {ps : List Part} (frame : unchangedBut ps s t)
    (setup : ps.contains .setup = false := by decide) (slots : ps.contains .slots = false := by decide)
    (head : ps.contains .cplHead = false := by decide) : SlotsMoved 0 s t := by
  have sameSetup := frame.get .setup setup
  have sameSlots := frame.get .slots slots
  have sameHead := frame.get .cplHead head
  simp only [Part.same, Prod.mk.injEq] at sameSetup sameSlots sameHead
  refine ⟨fun _ => sameSlots.1, fun u hu ht _ _ => ⟨sameSlots.1 ▸ ht, ?_⟩⟩
  simp only [State.unfreed, State.cplSize, sameSetup, sameSlots.1, sameHead, Nat.add_zero]

/-- What the Completion Writer and the held values show, before and after the change, is all that counts. -/
theorem SlotsMoved.of_same {n : Nat} {s s' t t' : State} (h : SlotsMoved n s t) (setup : s'.ring.setup = s.ring.setup)
    (cpl : s'.cpl = s.cpl) (setup' : t'.ring.setup = t.ring.setup) (cpl' : t'.cpl = t.cpl) : SlotsMoved n s' t' := by
  have unfreed : s'.unfreed = s.unfreed := by simp only [State.unfreed, State.cplSize, setup, cpl]
  have unfreed' : t'.unfreed = t.unfreed := by simp only [State.unfreed, State.cplSize, setup', cpl']
  unfold SlotsMoved
  rw [setup, cpl, cpl', unfreed, unfreed']
  exact h

/-! ## The accounts (R164) -/

/-- Each frame's credit fits its completion, and a context that waits for a return is in RESERVING and holds its credit. -/
def Frame.accounted (f : Frame) : Prop :=
  f.slots = (if f.assignments.length ≤ 2 then 1 else 2) ∧
    (f.returnAsked = true → f.phase = .reserving ∧ f.creditHeld = true)

def CaptureAccounted (s : State) : Prop := s.ring.capRead.isSome = true → s.sched.credit = .held

def EngineAccounted (s : State) : Prop :=
  (s.ring.ctlRead.isSome = true → s.engine.credit = .held ∧ s.engine.mode = .waitCredit) ∧
    (s.engine.job.isSome = true → s.engine.credit = .held ∧ s.engine.mode = .executing)

def FramesAccounted (s : State) : Prop := ∀ c f, s.ctx c = some f → f.accounted

/-- `State.creditForm` without what `State.restForm` says. -/
structure Accounts (s : State) : Prop where
  unset : s.ring.setup = none → s.atRest ∧ s.cpl.tail = 0 ∧ s.cpl.head = 0
  fits : ∀ u, s.ring.setup = some u → s.cpl.tail < u.completion.size ∧ s.cpl.head.toNat < u.completion.size ∧
    s.unfreed + s.reserved ≤ u.completion.size - 1
  starting : s.link.part = .starting → s.ring.setup = none
  capture : CaptureAccounted s
  engine : EngineAccounted s
  frames : FramesAccounted s

theorem reserved_of_atRest {s : State} (hs : s.restForm) (rest : s.atRest) : s.reserved = 0 := by
  have work := ((restForm_iff s).mp hs).1 rest
  simp only [State.work, State.reset, Prod.mk.injEq] at work
  obtain ⟨queue, credit, ⟨ctx0, ctx1⟩, -, staged, engine, -⟩ := work
  simp [State.reserved, queue, credit, ctx0, ctx1, staged, engine, heldSlots, CreditState.slots]

theorem creditForm_iff {s : State} (hs : s.restForm) : s.creditForm ↔ Accounts s := by
  have frames : (∀ c, (s.ctx c).all (fun f => decide (f.slots = if f.assignments.length ≤ 2 then 1 else 2) &&
      (!f.returnAsked || (decide (f.phase = .reserving) && f.creditHeld))) = true) ↔ FramesAccounted s := by
    refine forall_congr' fun c => ?_
    cases s.ctx c with
    | none => simp
    | some f => cases hr : f.returnAsked <;> simp [Frame.accounted, hr]
  constructor
  · rintro ⟨unset, fits, starting, -, -, capture, ctl, job, sound⟩
    exact ⟨unset, fun u hu => by simpa [hu] using fits, starting, capture, ⟨ctl, job⟩, frames.mp sound⟩
  · rintro ⟨unset, fits, starting, capture, ⟨ctl, job⟩, sound⟩
    refine ⟨unset, ?_, starting, reserved_of_atRest hs, hs.2.1, capture, ctl, job, frames.mpr sound⟩
    cases hu : s.ring.setup with
    | none => rfl
    | some u => simpa using fits u hu

theorem CaptureAccounted.of_unchanged {s t : State} (h : CaptureAccounted s) {ps : List Part} (frame : unchangedBut ps s t)
    (credit : ps.contains .capCredit = false := by decide) (read : ps.contains .capRing = false := by decide) :
    CaptureAccounted t := by
  have ring := frame.get .capRing read
  simp only [Part.same, Prod.mk.injEq] at ring
  unfold CaptureAccounted
  rw [show t.sched.credit = s.sched.credit from frame.get .capCredit credit, ring.2]
  exact h

theorem EngineAccounted.of_unchanged {s t : State} (h : EngineAccounted s) {ps : List Part} (frame : unchangedBut ps s t)
    (engine : ps.contains .engine = false := by decide) (read : ps.contains .ctlRing = false := by decide) :
    EngineAccounted t := by
  have ring := frame.get .ctlRing read
  simp only [Part.same, Prod.mk.injEq] at ring
  unfold EngineAccounted
  rw [show t.engine = s.engine from frame.get .engine engine, ring.2]
  exact h

theorem FramesAccounted.of_unchanged {s t : State} (h : FramesAccounted s) {ps : List Part} (frame : unchangedBut ps s t)
    (contexts : ps.contains .contexts = false := by decide) : FramesAccounted t := fun c f hf =>
  h c f (ctx_of_contexts frame c contexts ▸ hf)

theorem FramesAccounted.setCtx {s : State} (h : FramesAccounted s) (c : CtxId) {f : Option Frame}
    (hf : ∀ g, f = some g → g.accounted) : FramesAccounted (s.setCtx c f) := (forall_ctx c _).mpr
  ⟨fun g hg => hf g (by simpa using hg), fun g hg => h _ g (by simpa using hg)⟩

/-- Slots reserved by the frames in the contexts. -/
def State.heldByFrames (s : State) : Nat := heldSlots s.seq.ctx0 + heldSlots s.seq.ctx1

theorem reserved_eq (s : State) : s.reserved =
    s.sched.queue.length + s.sched.credit.slots + s.heldByFrames + s.engine.credit.slots + s.sensor.staged.length := by
  simp only [State.reserved, State.heldByFrames]
  omega

theorem heldByFrames_of_unchanged {s t : State} {ps : List Part} (frame : unchangedBut ps s t)
    (contexts : ps.contains .contexts = false := by decide) : t.heldByFrames = s.heldByFrames := by
  have ctx := frame.get .contexts contexts
  simp only [Part.same, Prod.mk.injEq] at ctx
  rw [State.heldByFrames, State.heldByFrames, ctx.1, ctx.2]

theorem heldByFrames_setCtx (s : State) (c : CtxId) (f : Option Frame) :
    (s.setCtx c f).heldByFrames + heldSlots (s.ctx c) = s.heldByFrames + heldSlots f := by
  cases c
  · show heldSlots f + heldSlots s.seq.ctx1 + heldSlots s.seq.ctx0 = heldSlots s.seq.ctx0 + heldSlots s.seq.ctx1 + _
    omega
  · show heldSlots s.seq.ctx0 + heldSlots f + heldSlots s.seq.ctx1 = heldSlots s.seq.ctx0 + heldSlots s.seq.ctx1 + _
    omega

/-- A change that leaves the part state and the held values: it moves the tail past slots that were reserved, or free. -/
theorem Accounts.change {s t : State} (hs : Accounts s) {ps : List Part} (frame : unchangedBut ps s t) {n : Nat}
    (moved : SlotsMoved n s t)
    (room : ∀ u, s.ring.setup = some u → s.unfreed + n + t.reserved ≤ u.completion.size - 1)
    (capture : CaptureAccounted t) (engine : EngineAccounted t) (frames : FramesAccounted t)
    (part : ps.contains .partState = false := by decide) (setup : ps.contains .setup = false := by decide)
    (head : ps.contains .cplHead = false := by decide) : Accounts t := by
  have samePart := frame.get .partState part
  have sameSetup := frame.get .setup setup
  have sameHead := frame.get .cplHead head
  simp only [Part.same] at samePart sameSetup sameHead
  refine ⟨fun h => ?_, fun u hu => ?_, by rw [samePart, sameSetup]; exact hs.starting, capture, engine, frames⟩
  · rw [sameSetup] at h
    obtain ⟨rest, tail, zero⟩ := hs.unset h
    exact ⟨(atRest_of_part samePart).mpr rest, (moved.1 h).trans tail, sameHead.trans zero⟩
  · rw [sameSetup] at hu
    obtain ⟨tail, below, -⟩ := hs.fits u hu
    have room := room u hu
    obtain ⟨tail', unfreed⟩ := moved.2 u hu tail below (by omega)
    exact ⟨tail', sameHead ▸ below, by omega⟩

/-- The slots that the change writes were reserved. -/
theorem Accounts.room {s t : State} (hs : Accounts s) {n : Nat} (h : n + t.reserved ≤ s.reserved) :
    ∀ u, s.ring.setup = some u → s.unfreed + n + t.reserved ≤ u.completion.size - 1 := fun u hu => by
  obtain ⟨-, -, fits⟩ := hs.fits u hu
  omega

/-- The slots that the change reserves or writes were free. -/
theorem Accounts.room_of_free {s t : State} (hs : Accounts s) {n m : Nat} (h : n + t.reserved ≤ s.reserved + m)
    (free : m ≤ s.freeCredit) : ∀ u, s.ring.setup = some u → s.unfreed + n + t.reserved ≤ u.completion.size - 1 :=
  fun u hu => by
    obtain ⟨tail, -, fits⟩ := hs.fits u hu
    rw [State.freeCredit, cplSize_of_setup hu] at free
    omega

end Sys2Proof.Machine
end

section
/-! SUPPORT for O59. The completion accounts under every change. -/

set_option Elab.async false

namespace Sys2Proof.Machine

open Sys2Proof

/-! ## Changes that reserve no slot -/

theorem reserved_of_unchanged {s t : State} {ps : List Part} (frame : unchangedBut ps s t)
    (hps : ([Part.queue, .capCredit, .contexts, .engine, .staged].all fun p => !ps.contains p) = true := by decide) :
    t.reserved = s.reserved := by
  simp only [List.all_cons, List.all_nil, Bool.and_true, Bool.and_eq_true, Bool.not_eq_true'] at hps
  obtain ⟨hq, hcc, hc, he, hst⟩ := hps
  have contexts := heldByFrames_of_unchanged frame hc
  rw [reserved_eq, reserved_eq, contexts, show t.sched.queue = s.sched.queue from frame.get .queue hq,
    show t.sched.credit = s.sched.credit from frame.get .capCredit hcc,
    show t.engine = s.engine from frame.get .engine he, show t.sensor.staged = s.sensor.staged from frame.get .staged hst]

theorem Accounts.of_unchanged {s t : State} (hs : Accounts s) {ps : List Part} (frame : unchangedBut ps s t)
    (hps : ([Part.queue, .capCredit, .contexts, .engine, .staged].all fun p => !ps.contains p) = true := by decide)
    (hps' : ([Part.partState, .setup, .cplHead, .slots, .capRing, .ctlRing].all fun p => !ps.contains p) = true := by
      decide) : Accounts t := by
  simp only [List.all_cons, List.all_nil, Bool.and_true, Bool.and_eq_true, Bool.not_eq_true'] at hps hps'
  obtain ⟨hq, hcc, hc, he, hst⟩ := hps
  obtain ⟨part, setup, head, slots, cap, ctl⟩ := hps'
  refine hs.change frame (.of_unchanged frame setup slots head) (hs.room (n := 0) ?_) (hs.capture.of_unchanged frame hcc cap)
    (hs.engine.of_unchanged frame he ctl) (hs.frames.of_unchanged frame hc) part setup head
  rw [reserved_of_unchanged frame (by simp only [List.all_cons, hq, hcc, hc, he, hst]; rfl)]
  exact Nat.le_of_eq (Nat.zero_add _)

/-! ## The fetching blocks -/

theorem captureTest_credit (s : State) : s.captureTest.sched.credit.slots ≤ s.sched.credit.slots := by
  unfold State.captureTest
  split
  · split
    · exact Nat.zero_le _
    · exact Nat.le_refl _
  · split
    · split
      · exact Nat.zero_le _
      · exact Nat.le_refl _
      · split <;> exact Nat.le_refl _
    · exact Nat.le_refl _

theorem captureTest_accounted {s : State} (h : CaptureAccounted s) : CaptureAccounted s.captureTest := by
  unfold State.captureTest
  split
  · split
    · rename_i none
      exact fun hr => absurd hr (by simp [none])
    · exact h
  · split
    · split
      · rename_i none
        exact fun hr => absurd ((h hr).symm.trans none) (by simp)
      · exact h
      · rename_i held
        split
        · exact fun _ => held
        · exact h
    · exact h

theorem engineTest_credit (s : State) : s.engineTest.engine.credit.slots ≤ s.engine.credit.slots := by
  unfold State.engineTest
  split
  · split
    · exact Nat.zero_le _
    · split <;> exact Nat.le_refl _
    · exact Nat.le_refl _
  · exact Nat.le_refl _

theorem engineTest_accounted {s : State} (h : EngineAccounted s) : EngineAccounted s.engineTest := by
  unfold State.engineTest
  split
  · split
    · rename_i idle
      exact ⟨fun hr => absurd ((h.1 hr).2.symm.trans idle) (by simp), fun hj => absurd ((h.2 hj).2.symm.trans idle) (by simp)⟩
    · rename_i waits
      split
      · rename_i held
        exact ⟨fun _ => ⟨held.1, waits⟩, h.2⟩
      · exact h
    · exact h
  · exact h

theorem engineDrain_accounted {s : State} (h : EngineAccounted s) : EngineAccounted s.engineDrain := by
  unfold State.engineDrain
  split
  · rename_i waits
    exact ⟨fun hr => absurd hr (by simp [waits.2]), fun hj => absurd ((h.2 hj).2.symm.trans waits.1) (by simp)⟩
  · exact h

theorem engineDrain_credit (s : State) : s.engineDrain.engine.credit.slots ≤ s.engine.credit.slots := by
  unfold State.engineDrain
  split
  · exact Nat.zero_le _
  · exact Nat.le_refl _

/-- Slots reserved, from the pieces that reserve them. -/
theorem reserved_le {s t : State} {n : Nat} (h : t.sched.queue.length + t.sched.credit.slots + t.heldByFrames +
    t.engine.credit.slots + t.sensor.staged.length + n ≤ s.sched.queue.length + s.sched.credit.slots + s.heldByFrames +
    s.engine.credit.slots + s.sensor.staged.length) : n + t.reserved ≤ s.reserved := by
  rw [reserved_eq, reserved_eq]
  omega

theorem captureTest_accounts {s : State} (hs : Accounts s) : Accounts s.captureTest := by
  have frame := captureTest_frame s
  refine hs.change frame (.of_unchanged frame) (hs.room (n := 0) (reserved_le ?_)) (captureTest_accounted hs.capture)
    (hs.engine.of_unchanged frame) (hs.frames.of_unchanged frame)
  have credit := captureTest_credit s
  rw [heldByFrames_of_unchanged frame, show s.captureTest.sched.queue = s.sched.queue from frame.get .queue,
    show s.captureTest.engine = s.engine from frame.get .engine,
    show s.captureTest.sensor.staged = s.sensor.staged from frame.get .staged]
  omega

theorem engineTest_accounts {s : State} (hs : Accounts s) : Accounts s.engineTest := by
  have frame := engineTest_frame s
  refine hs.change frame (.of_unchanged frame) (hs.room (n := 0) (reserved_le ?_)) (hs.capture.of_unchanged frame)
    (engineTest_accounted hs.engine) (hs.frames.of_unchanged frame)
  have credit := engineTest_credit s
  rw [heldByFrames_of_unchanged frame, show s.engineTest.sched = s.sched by
      unfold State.engineTest; split <;> [split <;> [rfl; (split <;> rfl); rfl]; rfl],
    show s.engineTest.sensor.staged = s.sensor.staged from frame.get .staged]
  omega

theorem engineDrain_accounts {s : State} (hs : Accounts s) : Accounts s.engineDrain := by
  have frame := engineDrain_frame s
  refine hs.change frame (.of_unchanged frame) (hs.room (n := 0) (reserved_le ?_)) (hs.capture.of_unchanged frame)
    (engineDrain_accounted hs.engine) (hs.frames.of_unchanged frame)
  have credit := engineDrain_credit s
  rw [heldByFrames_of_unchanged frame, show s.engineDrain.sched = s.sched by unfold State.engineDrain; split <;> rfl,
    show s.engineDrain.sensor.staged = s.sensor.staged from frame.get .staged]
  omega

/-! ## The part states -/

/-- With no slot written and none reserved the accounts hold in a part at rest with no held values. -/
theorem Accounts.of_unset {s : State} (rest : s.atRest) (setup : s.ring.setup = none) (tail : s.cpl.tail = 0)
    (head : s.cpl.head = 0) (capture : s.ring.capRead = none) (control : s.ring.ctlRead = none) (job : s.engine.job = none)
    (ctx : ∀ c, s.ctx c = none) : Accounts s where
  unset _ := ⟨rest, tail, head⟩
  fits u hu := absurd (setup.symm.trans hu) (by simp)
  starting _ := setup
  capture h := absurd h (by simp [capture])
  engine := ⟨fun h => absurd h (by simp [control]), fun h => absurd h (by simp [job])⟩
  frames c f hf := absurd ((ctx c).symm.trans hf) (by simp)

theorem enterHalted_accounts (cause : HaltCause) (d : Detail) {s : State} (hs : Accounts s) :
    Accounts (s.enterHalted cause d) where
  unset h := by
    have setup : s.ring.setup = none := ((cutOffWrite_frame s).get .setup).symm.trans h
    obtain ⟨-, tail, head⟩ := hs.unset setup
    have slots := (cutOffWrite_frame s).get .slots
    simp only [Part.same, Prod.mk.injEq] at slots
    exact ⟨.inr (.inr rfl), slots.1.trans tail, ((cutOffWrite_frame s).get .cplHead).trans head⟩
  fits u hu := by
    have setup : s.ring.setup = some u := ((cutOffWrite_frame s).get .setup).symm.trans hu
    obtain ⟨tail, head, fits⟩ := hs.fits u setup
    have slots := (cutOffWrite_frame s).get .slots
    simp only [Part.same, Prod.mk.injEq] at slots
    have sameTail : (s.enterHalted cause d).cpl.tail = s.cpl.tail := slots.1
    have sameHead : (s.enterHalted cause d).cpl.head = s.cpl.head := (cutOffWrite_frame s).get .cplHead
    have none : (s.enterHalted cause d).reserved = 0 := rfl
    rw [none, State.unfreed, cplSize_of_setup hu, sameTail, sameHead]
    rw [State.unfreed, cplSize_of_setup setup] at fits
    exact ⟨tail, head, by omega⟩
  starting h := absurd (show PartState.halted = .starting from h) (by simp)
  capture h := absurd h Bool.false_ne_true
  engine := ⟨fun h => absurd h Bool.false_ne_true, fun h => absurd h Bool.false_ne_true⟩
  frames c f hf := by cases c <;> exact absurd (show none = some f from hf) (by simp)

theorem enterStarting_accounts (s : State) : Accounts s.enterStarting := by
  unfold State.enterStarting
  dsimp only
  generalize (if s.cpl.unsignalled ≠ 0 then s.raise Causes.onlyCompletion else s) = u
  split
  · exact .of_unset (.inr (.inl rfl)) rfl rfl rfl rfl rfl rfl fun c => by cases c <;> rfl
  · exact .of_unset (.inr (.inr rfl)) rfl rfl rfl rfl rfl rfl fun c => by cases c <;> rfl

/-- The part leaves a state for one in which the held values stay. -/
theorem Accounts.setPart {s t : State} (hs : Accounts s) {ps : List Part} (frame : unchangedBut ps s t)
    (set : s.ring.setup = none → t.atRest) (starting : t.link.part ≠ .starting)
    (hps : ([Part.queue, .capCredit, .contexts, .engine, .staged].all fun p => !ps.contains p) = true := by decide)
    (hps' : ([Part.setup, .cplHead, .slots, .capRing, .ctlRing].all fun p => !ps.contains p) = true := by decide) :
    Accounts t := by
  have reserved := reserved_of_unchanged frame hps
  simp only [List.all_cons, List.all_nil, Bool.and_true, Bool.and_eq_true, Bool.not_eq_true'] at hps hps'
  obtain ⟨-, hcc, hc, he, -⟩ := hps
  obtain ⟨setup, head, slots, cap, ctl⟩ := hps'
  have moved : SlotsMoved 0 s t := .of_unchanged frame setup slots head
  have sameSetup : t.ring.setup = s.ring.setup := frame.get .setup setup
  have sameHead : t.cpl.head = s.cpl.head := frame.get .cplHead head
  refine ⟨fun h => ?_, fun u hu => ?_, fun h => absurd h starting, hs.capture.of_unchanged frame hcc cap,
    hs.engine.of_unchanged frame he ctl, hs.frames.of_unchanged frame hc⟩
  · rw [sameSetup] at h
    obtain ⟨-, tail, zero⟩ := hs.unset h
    exact ⟨set h, (moved.1 h).trans tail, sameHead.trans zero⟩
  · rw [sameSetup] at hu
    obtain ⟨tail, below, room⟩ := hs.fits u hu
    obtain ⟨tail', unfreed⟩ := moved.2 u hu tail below (by omega)
    exact ⟨tail', sameHead ▸ below, by omega⟩

theorem firstFailed_cons_bool {α : Type} (b : Bool) (report : α) (rest : List (Bool × α)) :
    firstFailed ((b, report) :: rest) = if !b then some report else firstFailed rest := by cases b <;> rfl

/-- The model's checks of a Setup Block are those of Table 59, in its order (R147). -/
theorem setupCheck_eq (u : Setup) : setupCheck u = firstFailed (setupChecks u) := by
  unfold setupCheck setupChecks
  simp only [firstFailed_cons_bool]
  rfl

theorem setupCheck_completion {u : Setup} (h : setupCheck u = none) : 32 ≤ u.completion.size := by
  have passed : ∀ c ∈ setupChecks u, c.1 = true := by
    simpa [setupCheck_eq, firstFailed] using h
  have ok := passed (ringOk u.completion 32 4096 64, .completionRing) (by simp [setupChecks])
  simp only [ringOk, Bool.and_eq_true, decide_eq_true_eq] at ok
  exact ok.2.1

/-! ## Records, credit and frames -/

theorem InRecord.engine_held {s : State} (h : InRecord (fun u => u.restForm ∧ Accounts u) s) :
    s.engine.credit = .held ∧ s.engine.mode = .executing := by
  obtain ⟨u, ⟨-, hu⟩, read, engine, -⟩ := h
  rw [engine]
  exact ⟨(hu.engine.1 read).1, rfl⟩

/-- The engine keeps its credit, its mode and its read. -/
theorem EngineAccounted.noRead {s : State} (h : EngineAccounted s) (executing : s.engine.mode = .executing) :
    s.ring.ctlRead = none := by
  by_contra hr
  have waits := (h.1 (Option.isSome_iff_ne_none.mpr hr)).2
  rw [executing] at waits
  cases waits

theorem setCtx_accounts {s : State} (hs : Accounts s) (c : CtxId) {f : Option Frame} {n : Nat}
    (sound : ∀ g, f = some g → g.accounted) (credit : heldSlots f ≤ heldSlots (s.ctx c) + n) (free : n ≤ s.freeCredit) :
    Accounts (s.setCtx c f) := by
  have frame := setCtx_frame c f s
  have held := heldByFrames_setCtx s c f
  refine hs.change frame (.of_unchanged frame) (hs.room_of_free (n := 0) (m := n) ?_ free) (hs.capture.of_unchanged frame)
    (hs.engine.of_unchanged frame) (hs.frames.setCtx c sound)
  rw [reserved_eq, reserved_eq, setCtx_sched, setCtx_engine, setCtx_sensor]
  omega

theorem Frame.accounted.goes {f g : Frame} {flush : Option Flush} (hf : f.accounted) (h : f.Goes g flush) : g.accounted := by
  obtain ⟨slots, asked⟩ := hf
  refine ⟨by rw [h.slots, h.assignments, slots], fun hg => ?_⟩
  obtain ⟨hfa, phase⟩ := h.asked hg
  obtain ⟨reserving, held⟩ := asked hfa
  obtain same | away := phase
  · exact ⟨same.trans reserving, h.credit.trans held⟩
  · exact absurd reserving away

theorem heldSlots_goes {f g : Frame} {flush : Option Flush} (h : f.Goes g flush) : heldSlots (some g) = heldSlots (some f) := by
  simp only [heldSlots, h.slots, h.credit]

theorem MayServe.accounted {f g : Frame} (h : MayServe (fun u => u.restForm ∧ Accounts u) f) (hf : f.accounted)
    (hg : g = { f with phase := .gap } ∨ g = { f with returnAsked := true }) : g.accounted := by
  obtain ⟨u, c, b, ⟨-, hu⟩, hb, phase, held, goes⟩ := h
  obtain ⟨slots, -⟩ := hf
  have before := (hu.frames c b hb).2
  have reserving : f.phase = .reserving := by
    rw [phase]
    obtain asked | asked := goes
    · exact (before asked.1).1
    · exact asked.1
  have none : f.returnAsked = false := by
    obtain asked | asked := goes
    · exact asked.2
    · obtain ⟨-, same, notBoth⟩ := asked
      rw [same, ← Bool.not_eq_true]
      exact fun ask => notBoth ⟨ask, (before ask).2⟩
  obtain rfl | rfl := hg
  · exact ⟨slots, fun ask => absurd (none.symm.trans ask) Bool.false_ne_true⟩
  · exact ⟨slots, fun _ => ⟨reserving, held⟩⟩

theorem grantFrame_credit {f : Frame} (hf : f.accounted) {n : Nat} (asked : frameRequest (some f) = some n)
    (noReturn : ¬ (f.returnAsked = true ∧ f.creditHeld = true)) : f.creditHeld = false ∧ n = f.slots := by
  have none : f.returnAsked = false := by
    rw [← Bool.not_eq_true]
    exact fun ask => noReturn ⟨ask, (hf.2 ask).2⟩
  simp only [frameRequest, none] at asked
  split at asked
  · rename_i waits
    exact ⟨waits.1, (Option.some.inj asked).symm⟩
  · cases asked

theorem newFrame_accounted (index : Nat) (windows : List Nat) : (newFrame index windows).accounted :=
  ⟨by simp [newFrame], fun h => absurd h Bool.false_ne_true⟩

/-! ## Completions -/

/-- The slots that are handed over were reserved by what left the state; all but them stays. -/
theorem Accounts.post {s t : State} (hs : Accounts s) {ps : List Part} (frame : unchangedBut ps s t) {n : Nat}
    (moved : SlotsMoved n s t) (reserved : t.reserved + n ≤ s.reserved) (engine : EngineAccounted t)
    (frames : FramesAccounted t) (hps : ([Part.partState, .setup, .cplHead, .capCredit, .capRing].all
      fun p => !ps.contains p) = true := by decide) : Accounts t := by
  simp only [List.all_cons, List.all_nil, Bool.and_true, Bool.and_eq_true, Bool.not_eq_true'] at hps
  obtain ⟨part, setup, head, credit, read⟩ := hps
  exact hs.change frame moved (hs.room (by omega)) (hs.capture.of_unchanged frame credit read) engine frames part setup head

theorem recordPosted_accounts {s : State} (hs : Accounts s) (r : ControlResult) (held : s.engine.credit = .held)
    (executing : s.engine.mode = .executing) : Accounts (s.recordPosted r) := by
  have frame := recordPosted_frame r s
  have posted := handOver_frame (.control r) s
  have moved : SlotsMoved 1 s (s.recordPosted r) := (handOver_slots (.control r) s).of_same rfl rfl rfl rfl
  have read : (s.recordPosted r).ring.ctlRead = none := by
    have ring := frame.get .ctlRing
    simp only [Part.same, Prod.mk.injEq] at ring
    exact ring.2.trans (hs.engine.noRead executing)
  refine hs.post frame moved ?_ ⟨fun h => absurd h (by simp [read]), fun h => absurd h Bool.false_ne_true⟩
    (hs.frames.of_unchanged frame)
  rw [reserved_eq, reserved_eq, heldByFrames_of_unchanged frame,
    show (s.recordPosted r).sched.queue = s.sched.queue from frame.get .queue,
    show (s.recordPosted r).sched.credit = s.sched.credit from frame.get .capCredit,
    show (s.recordPosted r).sensor.staged = s.sensor.staged from frame.get .staged, held]
  simp only [State.recordPosted, CreditState.slots]
  omega

theorem popStaged_accounts {s : State} (hs : Accounts s) {e : Staged} {rest : List Staged} (r : ControlResult)
    (hl : s.sensor.staged = e :: rest) : Accounts (s.popStaged rest r) := by
  have frame := popStaged_frame rest r s
  have moved : SlotsMoved 1 s (s.popStaged rest r) := 
    (handOver_slots (.control r) { s with sensor := { s.sensor with staged := rest } }).of_same rfl rfl rfl rfl
  refine hs.post frame moved ?_ (hs.engine.of_unchanged frame) (hs.frames.of_unchanged frame)
  rw [reserved_eq, reserved_eq, heldByFrames_of_unchanged frame,
    show (s.popStaged rest r).sched.queue = s.sched.queue from frame.get .queue,
    show (s.popStaged rest r).sched.credit = s.sched.credit from frame.get .capCredit,
    show (s.popStaged rest r).engine = s.engine from frame.get .engine,
    show (s.popStaged rest r).sensor.staged = rest from (handOver_frame _ _).get .staged, hl, List.length_cons]
  omega

theorem discardWaiting_accounts {s : State} (hs : Accounts s) : Accounts s.discardWaiting := by
  have frame := discardWaiting_frame s
  have moved : SlotsMoved (s.sensor.staged.filter fun e => !e.inProgress).length s s.discardWaiting :=
    (foldHandOver_slots _ (fun e => stagedResult e .discarded none)
      { s with sensor := { s.sensor with staged := s.sensor.staged.filter Staged.inProgress } }).of_same rfl rfl rfl rfl
  refine hs.post frame moved ?_ (hs.engine.of_unchanged frame) (hs.frames.of_unchanged frame)
  have split := List.length_eq_length_filter_add (l := s.sensor.staged) Staged.inProgress
  rw [reserved_eq, reserved_eq, heldByFrames_of_unchanged frame,
    show s.discardWaiting.sched.queue = s.sched.queue from frame.get .queue,
    show s.discardWaiting.sched.credit = s.sched.credit from frame.get .capCredit,
    show s.discardWaiting.engine = s.engine from frame.get .engine, discardWaiting_staged]
  omega

/-- The Sensor Link changes and its staged list keeps its length. -/
theorem Accounts.of_staged {s t : State} (hs : Accounts s) {ps : List Part} (frame : unchangedBut ps s t)
    (staged : t.sensor.staged.length = s.sensor.staged.length)
    (hps : ([Part.queue, .capCredit, .contexts, .engine].all fun p => !ps.contains p) = true := by decide)
    (hps' : ([Part.partState, .setup, .cplHead, .slots, .capRing, .ctlRing].all fun p => !ps.contains p) = true := by
      decide) : Accounts t := by
  simp only [List.all_cons, List.all_nil, Bool.and_true, Bool.and_eq_true, Bool.not_eq_true'] at hps hps'
  obtain ⟨hq, hcc, hc, he⟩ := hps
  obtain ⟨part, setup, head, slots, cap, ctl⟩ := hps'
  refine hs.change frame (.of_unchanged frame setup slots head) (hs.room (n := 0) (reserved_le ?_))
    (hs.capture.of_unchanged frame hcc cap) (hs.engine.of_unchanged frame he ctl) (hs.frames.of_unchanged frame hc)
    part setup head
  rw [heldByFrames_of_unchanged frame hc, show t.sched.queue = s.sched.queue from frame.get .queue hq,
    show t.sched.credit = s.sched.credit from frame.get .capCredit hcc, show t.engine = s.engine from frame.get .engine he,
    staged]
  omega

/-! ## The front entry of the staged list -/

theorem writeFront_of_staged {s : State} {e : Staged} {rest : List Staged} (h : s.sensor.staged = e :: rest) :
    s.writeFront = { s with
      sensor :=
        { s.sensor with
          staged := { e with inProgress := true } :: rest
          flush := s.sensor.flush.map Flush.takeOne
          port := some (begunNow .flush (.write e.address e.value) s) } } := by
  unfold State.writeFront
  rw [h]
  rfl

theorem beginFlush_of_staged {s : State} {e : Staged} {rest : List Staged} (h : s.sensor.staged = e :: rest) :
    s.beginFlush = { s with
      sensor :=
        { s.sensor with
          staged := { e with inProgress := true } :: rest
          flush := some { generation := s.sensor.generation + 1, taken := 1 }
          port := some (begunNow .flush (.write e.address e.value) s) } } :=
  writeFront_of_staged (s := { s with
    sensor := { s.sensor with flush := some { generation := s.sensor.generation + 1, taken := 0 } } }) h

/-! ## The removal of power (R128) -/

theorem handOver_setSensor (c : Completion) (v : SensorLink) (s : State) :
    State.handOver c { s with sensor := v } = { s.handOver c with sensor := v } := by
  unfold State.handOver
  dsimp only
  cases s.ring.setup with
  | none => rfl
  | some u =>
    dsimp only
    have slots : State.writeSlots u c { s with sensor := v } = { s.writeSlots u c with sensor := v } := by
      unfold State.writeSlots
      dsimp only
      split <;> rfl
    rw [slots]
    unfold State.coalesce
    split <;> rfl

/-- The Sensor Link once the removal of power has ended the port's work (R128). -/
def State.cutSensor (s : State) : SensorLink :=
  { s.sensor with
    port := none
    replayWaits := false
    staged := if (cutEntry s).isSome then s.sensor.staged.tail else s.sensor.staged
    flush := none
    generation := s.cutGeneration }

theorem cutPort_eq (s : State) :
    s.cutPort = { (cutCompletions s).foldl (fun s c => s.handOver c) s with sensor := s.cutSensor } := by
  unfold State.cutPort State.cutSensor cutCompletions cutEntry State.cutGeneration
  rw [closeLeftFlush_eq]
  dsimp only [State.freePort]
  cases hf : s.sensor.flush with
  | none => rfl
  | some f =>
    cases hl : s.sensor.staged with
    | nil => by_cases ht : f.taken = 0 <;> simp [State.closeFlush, ht]
    | cons e rest =>
      cases hp : e.inProgress
      · by_cases ht : f.taken = 0 <;> simp [State.closeFlush, ht, hp, Option.filter_some]
      · dsimp only [if_true]
        rw [handOver_setSensor]
        by_cases ht : f.taken = 0 <;> simp [State.closeFlush, ht, hp, stagedResult, kindSensorWrite, Option.filter_some]

theorem cutCompletions_eq (s : State) :
    cutCompletions s = (cutEntry s).toList.map fun e => .control (stagedResult e .sensorOff none) := rfl

theorem cutEntry_eq_some {s : State} {e : Staged} (h : cutEntry s = some e) :
    s.sensor.flush.isSome = true ∧ s.sensor.staged.head? = some e ∧ e.inProgress = true := by
  unfold cutEntry at h
  split at h
  · rename_i flush
    obtain ⟨head, writing⟩ := Option.filter_eq_some_iff.mp h
    exact ⟨flush, head, writing⟩
  · cases h

/-- The Sensor Link once power has been removed (R126 steps 2 to 5, R128). -/
theorem cutPower_sensor (s : State) : s.cutPower.sensor =
    { s.cutSensor with
      settle := none, replayPos := 0, replayed := 0, failed := 0, mirror := mirrorStale s.sensor.mirror, enableOut := false
      power := .off } := by
  unfold State.cutPower
  rw [cutPort_eq]
  rfl

theorem cutPower_slots (s : State) : SlotsMoved (cutEntry s).toList.length s s.cutPower := by
  have moved := foldHandOver_slots (cutEntry s).toList (fun e => stagedResult e .sensorOff none)
    { s with sensor := { s.sensor with settle := none } }
  have same : s.cutPower.cpl = ((cutEntry s).toList.foldl
      (fun s e => State.handOver (.control (stagedResult e .sensorOff none)) s)
      { s with sensor := { s.sensor with settle := none } }).cpl := by
    unfold State.cutPower
    rw [cutPort_eq, cutCompletions_eq, List.foldl_map]
    rfl
  have frame := foldHandOver_frame (cutEntry s).toList { s with sensor := { s.sensor with settle := none } }
    fun e => .control (stagedResult e .sensorOff none)
  refine moved.of_same rfl rfl (((cutPower_frame s).get .setup).trans ?_) same
  exact (frame.get .setup).symm

theorem cutPower_staged (s : State) : s.cutPower.sensor.staged.length + (cutEntry s).toList.length = s.sensor.staged.length := by
  rw [cutPower_sensor]
  show (if (cutEntry s).isSome then s.sensor.staged.tail else s.sensor.staged).length + _ = _
  cases hc : cutEntry s with
  | none => rfl
  | some e =>
    obtain ⟨-, head, -⟩ := cutEntry_eq_some hc
    obtain ⟨rest, hl⟩ := List.head?_eq_some_iff.mp head
    simp [hl]

theorem cutPower_accounts {s : State} (hs : Accounts s) : Accounts s.cutPower := by
  have frame := cutPower_frame s
  refine hs.post frame (cutPower_slots s) ?_ (hs.engine.of_unchanged frame) (hs.frames.of_unchanged frame)
  have staged := cutPower_staged s
  rw [reserved_eq, reserved_eq, heldByFrames_of_unchanged frame,
    show s.cutPower.sched.queue = s.sched.queue from frame.get .queue,
    show s.cutPower.sched.credit = s.sched.credit from frame.get .capCredit,
    show s.cutPower.engine = s.engine from frame.get .engine]
  omega

end Sys2Proof.Machine
end

section
/-! SUPPORT for O59. Every change keeps the completion accounts (`accounts_sustained`), in a part that at rest holds no
work. -/

set_option Elab.async false

namespace Sys2Proof.Machine

open Sys2Proof

theorem cplHead_accounts {s : State} (hs : Accounts s) {v : Word} (h : s.cplHeadInRange v.toNat = true) :
    Accounts { s with cpl := { s.cpl with head := v } } := by
  obtain ⟨unset, fits, starting, capture, engine, frames⟩ := hs
  refine ⟨fun hu => ?_, fun u hu => ?_, starting, capture, engine, fun c f hf => frames c f (by cases c <;> exact hf)⟩
  · obtain ⟨rest, tail, -⟩ := unset hu
    unfold State.cplHeadInRange at h
    rw [show s.ring.setup = none from hu] at h
    exact ⟨rest, tail, BitVec.eq_of_toNat_eq (of_decide_eq_true h)⟩
  · replace hu : s.ring.setup = some u := hu
    obtain ⟨tail, head, room⟩ := fits u hu
    unfold State.cplHeadInRange at h
    rw [hu] at h
    obtain ⟨below, forward⟩ := of_decide_eq_true h
    have shorter := ringDistance_le head below tail forward
    rw [State.unfreed, cplSize_of_setup hu] at room
    refine ⟨tail, below, ?_⟩
    show ringDistance s.cplSize v.toNat s.cpl.tail + s.reserved ≤ _
    rw [cplSize_of_setup hu]
    exact Nat.le_trans (Nat.add_le_add_right shorter _) room

theorem takeSetup_accounts {s : State} (hs : Accounts s) (rest : s.restForm) {u : Setup} {p : PartState}
    (read : s.ring.setupRead.isSome = true) (ok : setupCheck u = none) (hp : p = .running ∨ p = .draining) :
    Accounts (s.setupTaken u p) := by
  have starting := rest.2.1 read
  obtain ⟨atRest, tail, head⟩ := hs.unset (hs.starting starting)
  have size := setupCheck_completion ok
  have reserved : (s.setupTaken u p).reserved = 0 := (reserved_of_atRest rest atRest : s.reserved = 0)
  have unfreed : (s.setupTaken u p).unfreed = 0 := by
    show ringDistance u.completion.size s.cpl.head.toNat s.cpl.tail = 0
    rw [tail, head]
    exact (ringDistance_eq (show 0 < u.completion.size by omega) (by omega)).trans rfl
  refine ⟨fun h => absurd h (by simp [State.setupTaken]), fun v hv => ?_, fun h => ?_, hs.capture, hs.engine,
    fun c f hf => hs.frames c f (by cases c <;> exact hf)⟩
  · obtain rfl : u = v := Option.some.inj hv
    rw [unfreed, reserved]
    refine ⟨?_, ?_, Nat.zero_le _⟩
    · show s.cpl.tail < _
      omega
    · show s.cpl.head.toNat < _
      rw [head]
      exact Nat.lt_of_lt_of_le (by decide) size
  · obtain rfl | rfl := hp <;> exact absurd h (by simp [State.setupTaken])

theorem takeRecord_accounts {s : State} (hs : Accounts s) (read : s.ring.ctlRead.isSome = true)
    (frame : unchangedBut [.ctlRing, .issued, .engine] s
      { s.advanceRing .control with engine := { (s.advanceRing .control).engine with mode := .executing } }) :
    Accounts { s.advanceRing .control with engine := { (s.advanceRing .control).engine with mode := .executing } } := by
  have engine : (s.advanceRing .control).engine = s.engine := (advanceRing_frame .control s).get .engine
  have none := advanceRing_noRead_control s
  refine hs.change frame (.of_unchanged frame) (hs.room (n := 0) (reserved_le ?_)) (hs.capture.of_unchanged frame)
    ⟨fun h => absurd h (by simp [none]), fun h => ⟨?_, rfl⟩⟩ (hs.frames.of_unchanged frame)
  · rw [heldByFrames_of_unchanged frame]
    dsimp only
    rw [show (s.advanceRing .control).sched.queue = s.sched.queue from frame.get .queue,
      show (s.advanceRing .control).sched.credit = s.sched.credit from frame.get .capCredit,
      show (s.advanceRing .control).sensor.staged = s.sensor.staged from frame.get .staged, engine]
    omega
  · show (s.advanceRing .control).engine.credit = _
    rw [engine]
    exact (hs.engine.1 read).1

theorem joinQueue_accounts {s : State} (hs : Accounts s) (u : Setup) (data : List Byte)
    (read : s.ring.capRead.isSome = true) : Accounts (s.joinQueue u data) := by
  have frame := joinQueue_frame u data s
  have none := joinQueue_capRead u data s
  refine hs.change frame (.of_unchanged frame) (hs.room (n := 0) (reserved_le ?_)) (fun h => absurd h (by simp [none]))
    (hs.engine.of_unchanged frame) (hs.frames.of_unchanged frame)
  rw [heldByFrames_of_unchanged frame, joinQueue_queue, show (s.joinQueue u data).engine = s.engine from frame.get .engine,
    show (s.joinQueue u data).sensor.staged = s.sensor.staged from frame.get .staged, hs.capture read]
  simp only [List.length_append, List.length_cons, List.length_nil, State.joinQueue, CreditState.slots]
  omega

theorem postFrame_accounts {s : State} (hs : Accounts s) {c : CtxId} {e : Entry} {f : Frame}
    (h : s.frameToPost c = some (e, f)) :
    Accounts ((s.handOver (.frame (frameReport e s.recv.stray f))).setCtx c none) := by
  obtain ⟨-, hf, held⟩ := queue_of_frameToPost h
  have sound := hs.frames c f hf
  have posted := handOver_frame (.frame (frameReport e s.recv.stray f)) s
  have frame : unchangedBut (.contexts :: postParts) s
      ((s.handOver (.frame (frameReport e s.recv.stray f))).setCtx c none) :=
    (posted.widen _).trans ((setCtx_frame _ _ _).widen _)
  have slots : (Completion.frame (frameReport e s.recv.stray f)).slotItems.length = f.slots := by
    rw [sound.1]
    simp only [Completion.slotItems, frameReport, List.length_map]
    split <;> rfl
  have moved := handOver_slots (.frame (frameReport e s.recv.stray f)) s
  rw [slots] at moved
  have ctx : (s.handOver (.frame (frameReport e s.recv.stray f))).ctx c = some f := (ctx_of_contexts posted c).trans hf
  have before := heldByFrames_setCtx (s.handOver (.frame (frameReport e s.recv.stray f))) c none
  rw [ctx, heldByFrames_of_unchanged posted] at before
  refine hs.post frame (moved.of_same rfl rfl (by rw [setCtx_ring]) (by rw [setCtx_cpl])) ?_ (hs.engine.of_unchanged frame)
    ((hs.frames.of_unchanged posted).setCtx c fun g hg => by cases hg)
  rw [reserved_eq, reserved_eq, setCtx_sched, setCtx_engine, setCtx_sensor,
    show (s.handOver (.frame (frameReport e s.recv.stray f))).sched.queue = s.sched.queue from posted.get .queue,
    show (s.handOver (.frame (frameReport e s.recv.stray f))).sched.credit = s.sched.credit from posted.get .capCredit,
    show (s.handOver (.frame (frameReport e s.recv.stray f))).engine = s.engine from posted.get .engine,
    show (s.handOver (.frame (frameReport e s.recv.stray f))).sensor.staged = s.sensor.staged from posted.get .staged]
  simp only [heldSlots, held, if_true] at before
  omega

theorem dequeue_accounts {s : State} (hs : Accounts s) {e : Entry} {rest : List Entry} (hq : s.sched.queue = e :: rest) :
    Accounts (s.dequeue e rest) := by
  have frame := dequeue_frame e rest s
  have moved : SlotsMoved 1 s (s.dequeue e rest) :=
    (handOver_slots (.requestEnd (requestReport e s.sched.endCause s.seq.missed))
      { s with
        sched := { s.sched with queue := rest }
        seq := { s.seq with missed := 0 }
        cutter :=
          { s.cutter with
            windows := countRefs ((e.request.map CaptureRequest.windows).getD []) (· - 1) s.cutter.windows } }).of_same
      rfl rfl rfl rfl
  refine hs.post frame moved ?_ (hs.engine.of_unchanged frame) (hs.frames.of_unchanged frame)
  rw [reserved_eq, reserved_eq, heldByFrames_of_unchanged frame, dequeue_queue, hq,
    show (s.dequeue e rest).sched.credit = s.sched.credit from frame.get .capCredit,
    show (s.dequeue e rest).engine = s.engine from frame.get .engine,
    show (s.dequeue e rest).sensor.staged = s.sensor.staged from frame.get .staged, List.length_cons]
  omega

theorem returnEntry_accounts {s : State} (hs : Accounts s) (e : CacheEntry) (rest : List CacheEntry) (reason : ReturnReason)
    (credit : 1 ≤ s.freeCredit)
    (frame : unchangedBut (.cache :: postParts) s
      ({ s with bufs := { s.bufs with cache := rest } }.handOver (.bufferReturn e.tag reason))) :
    Accounts ({ s with bufs := { s.bufs with cache := rest } }.handOver (.bufferReturn e.tag reason)) := by
  have moved : SlotsMoved 1 s ({ s with bufs := { s.bufs with cache := rest } }.handOver (.bufferReturn e.tag reason)) :=
    (handOver_slots (.bufferReturn e.tag reason) { s with bufs := { s.bufs with cache := rest } }).of_same rfl rfl rfl rfl
  refine hs.change frame moved (hs.room_of_free (m := 1) ?_ credit) (hs.capture.of_unchanged frame)
    (hs.engine.of_unchanged frame) (hs.frames.of_unchanged frame)
  rw [reserved_of_unchanged frame]
  omega

theorem stage_accounts {s : State} (hs : Accounts s) (e : Staged) (held : s.engine.credit = .held)
    (executing : s.engine.mode = .executing) (frame : unchangedBut [.staged, .engine] s (s.joinStaged e)) :
    Accounts (s.joinStaged e) := by
  refine hs.change frame (.of_unchanged frame) (hs.room (n := 0) (reserved_le ?_)) (hs.capture.of_unchanged frame)
    ⟨fun h => absurd h ?_, fun h => absurd h Bool.false_ne_true⟩ (hs.frames.of_unchanged frame)
  · rw [heldByFrames_of_unchanged frame, held]
    simp only [State.joinStaged, List.length_append, List.length_cons, List.length_nil, CreditState.slots]
    omega
  · have none : (s.joinStaged e).ring.ctlRead = none := hs.engine.noRead executing
    simp [none]

theorem accounts_sustained : Sustained fun s => s.restForm ∧ Accounts s := restForm_sustained.and
  fun {ps s t} rest hs hc => by
    have frame := hc.unchanged
    cases hc
    case cplHead v h => exact cplHead_accounts hs h
    case captureTest => exact captureTest_accounts hs
    case engineTest => exact engineTest_accounts hs
    case engineDrain => exact engineDrain_accounts hs
    case partReset => exact .of_unset (.inl rfl) rfl rfl rfl rfl rfl rfl fun c => by cases c <;> rfl
    case enterHalted => exact enterHalted_accounts _ _ hs
    case enterStarting => exact enterStarting_accounts s
    case leaveHalted => exact hs.setPart frame (fun _ => .inl rfl) (by simp [State.enterDisabled])
    case leaveDrain => exact hs.setPart frame (fun _ => .inl rfl) (by simp [State.drainLeft, State.enterDisabled])
    case beginDrain running =>
      refine hs.setPart frame (fun h => ?_) (by simp)
      obtain ⟨atRest, -⟩ := hs.unset h
      simp [State.atRest, running] at atRest
    case takeSetup u p ok hp read => exact takeSetup_accounts hs rest read ok hp
    case takeRecord read => exact takeRecord_accounts hs read frame
    case joinQueue u data read _ => exact joinQueue_accounts hs u data read
    case finish r h =>
      have held : s.engine.credit = .held ∧ s.engine.mode = .executing := h.elim InRecord.engine_held hs.engine.2
      exact recordPosted_accounts hs r held.1 held.2
    case hold j _ h =>
      refine hs.change frame (.of_unchanged frame) (hs.room (n := 0) (Nat.le_of_eq (Nat.zero_add _)))
        (hs.capture.of_unchanged frame) ⟨hs.engine.1, fun _ => h.engine_held⟩ (hs.frames.of_unchanged frame)
    case stage e _ _ h _ => exact stage_accounts hs e h.engine_held.1 h.engine_held.2 frame
    case grantCapture asked free =>
      refine hs.change frame (.of_unchanged frame) (hs.room_of_free (n := 0) (m := 1) ?_ free) (fun _ => rfl)
        (hs.engine.of_unchanged frame) (hs.frames.of_unchanged frame)
      rw [reserved_eq, reserved_eq, heldByFrames_of_unchanged frame]
      simp only [CreditState.slots]
      omega
    case grantEngine asked free =>
      refine hs.change frame (.of_unchanged frame) (hs.room_of_free (n := 0) (m := 1) ?_ free)
        (hs.capture.of_unchanged frame) ⟨fun h => ?_, fun h => ?_⟩ (hs.frames.of_unchanged frame)
      · rw [reserved_eq, reserved_eq, heldByFrames_of_unchanged frame]
        simp only [CreditState.slots]
        omega
      · exact absurd ((hs.engine.1 h).1.symm.trans asked) (by simp)
      · exact absurd ((hs.engine.2 h).1.symm.trans asked) (by simp)
    case grantFrame c f n asked noReturn hf free =>
      have sound := hs.frames c f hf
      obtain ⟨unheld, rfl⟩ := grantFrame_credit sound asked noReturn
      refine setCtx_accounts hs c (fun g hg => ?_) ?_ free
      · obtain rfl := Option.some.inj hg
        exact ⟨sound.1, fun ask => ⟨(sound.2 ask).1, rfl⟩⟩
      · simp [heldSlots, hf, unheld]
    case returnEntry e tail reason _ free => exact returnEntry_accounts hs e tail reason free frame
    case goes c f g hf h =>
      refine setCtx_accounts (n := 0) hs c (fun g' hg => ?_) ?_ (Nat.zero_le _)
      · obtain rfl := Option.some.inj hg
        exact (hs.frames c f hf).goes h
      · rw [heldSlots_goes h, hf]
        exact Nat.le_refl _
    case served c f g h hg hf =>
      refine setCtx_accounts (n := 0) hs c (fun g' hg' => ?_) ?_ (Nat.zero_le _)
      · obtain rfl := Option.some.inj hg'
        exact h.accounted (hs.frames c f hf) hg
      · obtain rfl | rfl := hg <;> simp [heldSlots, hf]
    case beginFrame e r h =>
      refine setCtx_accounts (n := 0) hs _ (fun g hg => ?_) ?_ (Nat.zero_le _)
      · obtain rfl := Option.some.inj hg
        exact newFrame_accounted _ _
      · exact Nat.zero_le _
    case postFrame c e f h => exact postFrame_accounts hs h
    case queue q h =>
      refine hs.change frame (.of_unchanged frame) (hs.room (n := 0) (reserved_le ?_)) (hs.capture.of_unchanged frame)
        (hs.engine.of_unchanged frame) (hs.frames.of_unchanged frame)
      have length : q.length = s.sched.queue.length := by simpa using congrArg List.length h
      rw [heldByFrames_of_unchanged frame, length]
      exact Nat.le_refl _
    case dequeue hq => exact dequeue_accounts hs hq
    case beginFlush staged =>
      obtain ⟨e, more, hl⟩ := List.exists_cons_of_ne_nil staged
      exact hs.of_staged frame (by rw [beginFlush_of_staged hl, hl]; rfl)
    case popStaged hl => exact popStaged_accounts hs _ hl
    case writeNext hl => exact hs.of_staged frame (by rw [writeFront_of_staged hl, hl]; rfl)
    case discardWaiting => exact discardWaiting_accounts hs
    case cutPower => exact cutPower_accounts hs
    all_goals exact hs.of_unchanged frame

/-- Settles O59: every change keeps the accounts in a part that at rest holds no work (`accounts_sustained`). -/
theorem stepNeverOverrunsTheCompletionRing : Obligations.StepNeverOverrunsTheCompletionRing := by
  unfold Obligations.StepNeverOverrunsTheCompletionRing
  intro s t credit rest h
  obtain ⟨rest', accounts⟩ := accounts_sustained.step ⟨rest, (creditForm_iff rest).mp credit⟩ h
  exact ⟨(creditForm_iff rest').mpr accounts, rest'⟩

end Sys2Proof.Machine
end

section
/-! SUPPORT for O57. A flush and its WRITE under every change (R116 to R118, R130). -/

set_option Elab.async false

namespace Sys2Proof.Machine

open Sys2Proof

/-! ## A flush apart from exposure and readout -/

/-- `State.flushApart` in what holds the port and what holds flushes back. -/
theorem flushApart_of {s t : State} (hs : s.flushApart)
    (flush : ∀ f, t.sensor.flush = some f → (∃ g, s.sensor.flush = some g ∧ g.generation = f.generation ∧
      t.sensor.generation = s.sensor.generation) ∧ ∀ c, t.blocksFlush c = true → s.blocksFlush c = true)
    (writes : ∀ x, t.sensor.port = some x → x.owner = .flush → t.sensor.flush.isSome = true)
    (left : ∀ x g, t.sensor.port = some x → x.owner = .leftFlush g →
      t.sensor.flush = none ∧ g = t.sensor.generation + 1) : t.flushApart := by
  refine ⟨fun f hf => ?_, writes, left⟩
  obtain ⟨⟨g, hg, generation, same⟩, blocks⟩ := flush f hf
  obtain ⟨block0, block1, next⟩ := hs.1 g hg
  have free : ∀ c, s.blocksFlush c = false → t.blocksFlush c = false := fun c hc => by
    rw [← Bool.not_eq_true]
    exact fun h => absurd (hc.symm.trans (blocks c h)) Bool.false_ne_true
  exact ⟨free _ block0, free _ block1, by rw [← generation, same, next]⟩

/-- A change of the port alone to a transaction of another kind. -/
theorem flushApart_of_port {s t : State} (hs : s.flushApart) (flush : t.sensor.flush = s.sensor.flush)
    (generation : t.sensor.generation = s.sensor.generation) (blocks : ∀ c, t.blocksFlush c = true → s.blocksFlush c = true)
    (port : ∀ x, t.sensor.port = some x → x.owner = .flush ∨ (∃ g, x.owner = .leftFlush g) →
      ∃ y, s.sensor.port = some y ∧ y.owner = x.owner) : t.flushApart := by
  refine flushApart_of hs (fun f hf => ⟨⟨f, flush ▸ hf, rfl, generation⟩, blocks⟩) (fun x hx owner => ?_) fun x g hx owner => ?_
  · obtain ⟨y, hy, same⟩ := port x hx (.inl owner)
    rw [flush]
    exact hs.2.1 y hy (same.trans owner)
  · obtain ⟨y, hy, same⟩ := port x hx (.inr ⟨g, owner⟩)
    rw [flush, generation]
    exact hs.2.2 y g hy (same.trans owner)

theorem flushApart_of_idle {t : State} (flush : t.sensor.flush = none) (port : t.sensor.port = none) : t.flushApart :=
  ⟨fun f hf => absurd (flush.symm.trans hf) (by simp), fun x hx => absurd (port.symm.trans hx) (by simp),
    fun x g hx => absurd (port.symm.trans hx) (by simp)⟩

theorem blocksFlush_of_contexts {s t : State} {ps : List Part} (frame : unchangedBut ps s t)
    (contexts : ps.contains .contexts = false := by decide) (c : CtxId) (h : t.blocksFlush c = true) :
    s.blocksFlush c = true := by
  rw [← h, State.blocksFlush, State.blocksFlush]
  simp only [State.inPhase, ctx_of_contexts frame c contexts]

theorem flushApart_of_unchanged {s t : State} (hs : s.flushApart) {ps : List Part} (frame : unchangedBut ps s t)
    (hps : ([Part.contexts, .flush, .generation, .port].all fun p => !ps.contains p) = true := by decide) :
    t.flushApart := by
  simp only [List.all_cons, List.all_nil, Bool.and_true, Bool.and_eq_true, Bool.not_eq_true'] at hps
  obtain ⟨contexts, flush, generation, port⟩ := hps
  refine flushApart_of_port hs (frame.get .flush flush) (frame.get .generation generation)
    (blocksFlush_of_contexts frame contexts) fun x hx _ => ⟨x, ?_, rfl⟩
  rw [← show t.sensor.port = s.sensor.port from frame.get .port port]
  exact hx

/-- A context changes, into a state that holds flushes back only from one or with no flush in progress. -/
theorem flushApart_setCtx {s : State} (hs : s.flushApart) {c : CtxId} {f : Option Frame}
    (h : f.any Frame.blocksFlush = true → s.blocksFlush c = true ∨ s.sensor.flush = none) :
    (s.setCtx c f).flushApart := by
  refine flushApart_of hs (fun g hg => ?_) ?_ ?_
  · rw [setCtx_sensor] at hg ⊢
    refine ⟨⟨g, hg, rfl, rfl⟩, (forall_ctx c _).mpr ⟨fun hc => ?_, fun hc => ?_⟩⟩
    · refine (h ?_).resolve_right (by simp [hg])
      cases f with
      | none => simp [State.blocksFlush] at hc
      | some f => rwa [blocksFlush_of_ctx (setCtx_ctx_same s c (some f))] at hc
    · simpa [State.blocksFlush] using hc
  · rw [setCtx_sensor]
    exact hs.2.1
  · rw [setCtx_sensor]
    exact hs.2.2

theorem blocksFlush_of_free {s : State} (h : ∀ c, s.ctx c = none) (c : CtxId) : s.blocksFlush c = false := by
  simp [State.blocksFlush, State.inPhase, h c]

theorem enterHalted_blocksFlush (cause : HaltCause) (d : Detail) (s : State) (c : CtxId) :
    (s.enterHalted cause d).blocksFlush c = false := blocksFlush_of_free (fun c => by cases c <;> rfl) c

theorem afterHalt_owner {x : Transaction} (h : x.afterHalt.owner = .flush ∨ ∃ g, x.afterHalt.owner = .leftFlush g) :
    x.afterHalt = x := by
  unfold Transaction.afterHalt at h ⊢
  split
  · rename_i engine
    simp [engine] at h
  · rfl

theorem enterHalted_sensor (cause : HaltCause) (d : Detail) (s : State) : (s.enterHalted cause d).sensor =
    { s.sensor with staged := [], engineWaits := false, port := s.sensor.port.map Transaction.afterHalt } := by
  have h : ∀ u : State, u.cutOffWrite.sensor = u.sensor := fun u => by
    unfold State.cutOffWrite
    split
    · rfl
    · dsimp only
      split
      · rfl
      · split <;> rfl
  show { s.cutOffWrite.sensor with
    staged := [], engineWaits := false, port := s.cutOffWrite.sensor.port.map Transaction.afterHalt } = _
  rw [h]

theorem enterHalted_flushApart (cause : HaltCause) (d : Detail) {s : State} (hs : s.flushApart) :
    (s.enterHalted cause d).flushApart := by
  refine flushApart_of_port hs (by rw [enterHalted_sensor]) (by rw [enterHalted_sensor])
    (fun c hc => absurd ((enterHalted_blocksFlush cause d s c).symm.trans hc) Bool.false_ne_true) fun x hx owner => ?_
  rw [enterHalted_sensor] at hx
  obtain ⟨y, hy, rfl⟩ := Option.map_eq_some_iff.mp hx
  exact ⟨y, hy, by rw [afterHalt_owner owner]⟩

/-- The Sensor Link in STARTING: a flush that a halt left behind is no longer in progress (R130, R174). -/
def State.startedSensor (s : State) : SensorLink :=
  { s.sensor with flush := none, port := s.sensor.port.map (Transaction.leaveFlush s.sensor.flush) }

theorem enterStarting_sensor (s : State) : s.enterStarting.sensor =
    if s.link.setupLo.toNat % 64 = 0 then s.startedSensor
    else { s.startedSensor with
      staged := [], engineWaits := false, port := s.startedSensor.port.map Transaction.afterHalt } := by
  unfold State.enterStarting State.startedSensor
  by_cases raised : s.cpl.unsignalled ≠ 0
  · dsimp only
    rw [if_pos raised]
    split
    · rename_i even
      rw [if_pos (show s.link.setupLo.toNat % 64 = 0 from even)]
      rfl
    · rename_i odd
      rw [if_neg (show ¬ s.link.setupLo.toNat % 64 = 0 from odd), enterHalted_sensor]
      rfl
  · dsimp only
    rw [if_neg raised]
    split
    · rfl
    · rw [enterHalted_sensor]

theorem enterStarting_atRest (s : State) : s.enterStarting.atRest := by
  unfold State.enterStarting
  dsimp only
  generalize (if s.cpl.unsignalled ≠ 0 then s.raise Causes.onlyCompletion else s) = u
  split
  · exact .inr (.inl rfl)
  · exact .inr (.inr rfl)

theorem enterStarting_ctx (s : State) (c : CtxId) : s.enterStarting.ctx c = none := by
  unfold State.enterStarting
  dsimp only
  generalize (if s.cpl.unsignalled ≠ 0 then s.raise Causes.onlyCompletion else s) = u
  split <;> cases c <;> rfl

/-- No WRITE of a flush in progress is on the port in STARTING, and the WRITE of one left behind brings the next generation. -/
theorem startedSensor_port {s : State} (hs : s.flushApart) {x : Transaction} (hx : s.startedSensor.port = some x) :
    x.owner ≠ .flush ∧ ∀ g, x.owner = .leftFlush g → g = s.sensor.generation + 1 := by
  obtain ⟨flushing, writes, left⟩ := hs
  obtain ⟨y, hy, hx⟩ := Option.map_eq_some_iff.mp hx
  unfold Transaction.leaveFlush at hx
  split at hx
  · rename_i f owner hf
    subst hx
    refine ⟨by simp, fun g hg => ?_⟩
    obtain rfl : f.generation = g := by simpa using hg
    exact (flushing f hf).2.2
  · rename_i other
    subst hx
    refine ⟨fun owner => ?_, fun g owner => (left _ g hy owner).2⟩
    obtain ⟨f, hf⟩ := Option.isSome_iff_exists.mp (writes _ hy owner)
    exact other f owner hf

theorem enterStarting_flushApart {s : State} (hs : s.flushApart) : s.enterStarting.flushApart := by
  have flush : s.enterStarting.sensor.flush = none := by rw [enterStarting_sensor]; split <;> rfl
  have generation : s.enterStarting.sensor.generation = s.sensor.generation := by rw [enterStarting_sensor]; split <;> rfl
  have port : ∀ x, s.enterStarting.sensor.port = some x → x.owner = .flush ∨ (∃ g, x.owner = .leftFlush g) →
      s.startedSensor.port = some x := fun x hx owner => by
    rw [enterStarting_sensor] at hx
    split at hx
    · exact hx
    · obtain ⟨y, hy, rfl⟩ := Option.map_eq_some_iff.mp hx
      rwa [afterHalt_owner owner]
  refine ⟨fun f hf => absurd (flush.symm.trans hf) (by simp), fun x hx owner => ?_, fun x g hx owner => ⟨flush, ?_⟩⟩
  · exact absurd owner (startedSensor_port hs (port x hx (.inl owner))).1
  · rw [generation]
    exact (startedSensor_port hs (port x hx (.inr ⟨g, owner⟩))).2 g owner

theorem flushCondition_iff (s : State) : s.flushCondition = true ↔
    s.blocksFlush .c0 = false ∧ s.blocksFlush .c1 = false ∧ s.sensor.power = .ready ∧ s.sensor.flush = none := by
  simp [State.flushCondition, and_assoc]

theorem closeFlush_flush (s : State) : s.closeFlush.sensor.flush = none := by
  unfold State.closeFlush
  split
  · assumption
  · rfl

theorem flushApart_sustained : Sustained State.flushApart := ⟨fun {ps s t} hs hc => by
  have frame := hc.unchanged
  cases hc
  case partReset => exact flushApart_of_idle rfl rfl
  case enterHalted => exact enterHalted_flushApart _ _ hs
  case enterStarting => exact enterStarting_flushApart hs
  case leaveDrain drained => rw [drainLeft_eq drained]; exact flushApart_of_idle rfl rfl
  case grantFrame hf _ =>
    exact flushApart_setCtx hs fun h => .inl (by rw [blocksFlush_of_ctx hf]; exact h)
  case goes hf h =>
    refine flushApart_setCtx hs fun hg => (h.blocks hg).imp_left fun hb => by rw [blocksFlush_of_ctx hf]; exact hb
  case served h hf =>
    refine flushApart_setCtx hs fun hg => .inl ?_
    rw [blocksFlush_of_ctx hf]
    obtain rfl | rfl := h
    · simp [Frame.blocksFlush] at hg
    · exact hg
  case beginFrame => exact flushApart_setCtx hs fun hg => absurd hg (by simp [Frame.blocksFlush, newFrame])
  case postFrame =>
    exact flushApart_setCtx (flushApart_of_unchanged hs (handOver_frame _ s)) fun hg => absurd hg (by simp)
  case startEngine =>
    refine flushApart_of_port hs rfl rfl (blocksFlush_of_contexts frame) fun x hx owner => ?_
    obtain rfl := Option.some.inj hx
    simp at owner
  case freePort => exact flushApart_of_port hs rfl rfl (blocksFlush_of_contexts frame) fun x hx => by cases hx
  case endLeft x g owner hx =>
    refine flushApart_of_idle ?_ rfl
    exact (frame.get .flush).trans (hs.2.2 x g hx owner).1
  case beginFlush condition staged =>
    obtain ⟨e, rest, hl⟩ := List.exists_cons_of_ne_nil staged
    obtain ⟨block0, block1, -, none⟩ := (flushCondition_iff s).mp condition
    rw [beginFlush_of_staged hl]
    refine ⟨fun f hf => ?_, fun _ _ _ => rfl, fun x g hx owner => ?_⟩
    · obtain rfl := Option.some.inj hf
      exact ⟨block0, block1, rfl⟩
    · obtain rfl := Option.some.inj hx
      simp [begunNow] at owner
  case writeNext x e rest owner hx hl =>
    have flush := hs.2.1 x hx owner
    refine flushApart_of hs (fun f hf => ?_) (fun _ _ _ => ?_) fun y g hy owner => ?_
    · rw [writeFront_of_staged hl] at hf
      obtain ⟨g, hg, rfl⟩ := Option.map_eq_some_iff.mp hf
      exact ⟨⟨g, hg, rfl, frame.get .generation⟩, blocksFlush_of_contexts frame⟩
    · rw [writeFront_of_staged hl]
      simpa using flush
    · rw [writeFront_of_staged hl] at hy
      obtain rfl := Option.some.inj hy
      simp [begunNow] at owner
  case endFlush => exact flushApart_of_idle (closeFlush_flush s) rfl
  case cutPower => exact flushApart_of_idle (by rw [cutPower_sensor]; rfl) (by rw [cutPower_sensor]; rfl)
  case replayWrites =>
    refine flushApart_of_port hs rfl rfl (blocksFlush_of_contexts frame) fun x hx owner => ?_
    obtain rfl := Option.some.inj hx
    simp at owner
  case replayEnds => exact flushApart_of_port hs rfl rfl (blocksFlush_of_contexts frame) fun x hx => by cases hx
  all_goals exact flushApart_of_unchanged hs frame⟩

/-! ## The staged list and the WRITE of a flush -/

theorem flushForm_of_unchanged {s t : State} (hs : s.flushForm) {ps : List Part} (frame : unchangedBut ps s t)
    (hps : ([Part.staged, .flush, .port].all fun p => !ps.contains p) = true := by decide) : t.flushForm := by
  simp only [List.all_cons, List.all_nil, Bool.and_true, Bool.and_eq_true, Bool.not_eq_true'] at hps
  obtain ⟨staged, flush, port⟩ := hps
  unfold State.flushForm
  rw [show t.sensor.staged = s.sensor.staged from frame.get .staged staged,
    show t.sensor.flush = s.sensor.flush from frame.get .flush flush,
    show t.sensor.port = s.sensor.port from frame.get .port port]
  exact hs

/-- The staged list of a state in which no flush is in progress. -/
theorem flushForm_of_none {t : State} (flush : t.sensor.flush = none)
    (waiting : ∀ e ∈ t.sensor.staged, e.inProgress = false) : t.flushForm := by
  refine ⟨fun e he => waiting e (List.mem_of_mem_tail he), fun e he writes => ?_, fun f hf => ?_⟩
  · exact absurd ((waiting e (List.mem_of_mem_head? he)).symm.trans writes) Bool.false_ne_true
  · exact absurd (flush.symm.trans hf) (by simp)

/-- With no flush in progress every staged entry waits. -/
theorem State.flushForm.waiting {s : State} (hs : s.flushForm) (flush : s.sensor.flush = none) :
    ∀ e ∈ s.sensor.staged, e.inProgress = false := fun e he => by
  obtain ⟨tail, head, -⟩ := hs
  cases hl : s.sensor.staged with
  | nil => simp [hl] at he
  | cons a rest =>
    rw [hl] at he tail head
    obtain rfl | he := List.mem_cons.mp he
    · rw [← Bool.not_eq_true]
      intro writes
      simpa [flush] using head e rfl writes
    · exact tail e he

/-- With another transaction on the port, or none, no flush is in progress. -/
theorem State.flushForm.noFlush {s : State} (hs : s.flushForm)
    (port : ∀ x a v, s.sensor.port = some x → x.owner = .flush → x.op ≠ .write a v) : s.sensor.flush = none := by
  cases hf : s.sensor.flush with
  | none => rfl
  | some f =>
    obtain ⟨-, x, a, v, hx, owner, op⟩ := hs.2.2 f hf
    exact absurd op (port x a v hx owner)

theorem flushForm_of_port {s t : State} (hs : s.flushForm)
    (port : ∀ x a v, s.sensor.port = some x → x.owner = .flush → x.op ≠ .write a v)
    (flush : t.sensor.flush = s.sensor.flush) (staged : t.sensor.staged = s.sensor.staged) : t.flushForm :=
  flushForm_of_none (flush.trans (hs.noFlush port)) (by rw [staged]; exact hs.waiting (hs.noFlush port))

theorem port_of_replayMayWrite {s : State} {waits : Bool} (h : s.replayMayWrite waits) (x : Transaction) (a v : Half)
    (hx : s.sensor.port = some x) (owner : x.owner = .flush) : x.op ≠ .write a v := by
  obtain ⟨free, -⟩ | ⟨⟨y, hy, replay⟩, -⟩ | ⟨stands, -⟩ := h
  · exact absurd (free.symm.trans hx) (by simp)
  · obtain rfl := Option.some.inj (hy.symm.trans hx)
    exact absurd (replay.symm.trans owner) (by simp)
  · obtain ⟨-, -, free⟩ := (replayStands_iff s).mp stands
    exact absurd (free.symm.trans hx) (by simp)

theorem enterHalted_flushForm (cause : HaltCause) (d : Detail) {s : State} (hs : s.flushForm) :
    (s.enterHalted cause d).flushForm := by
  unfold State.flushForm
  rw [enterHalted_sensor]
  refine ⟨fun e he => (List.not_mem_nil he).elim, fun e he => absurd he (by simp), fun f hf => ?_⟩
  obtain ⟨taken, x, a, v, hx, owner, op⟩ := hs.2.2 f hf
  exact ⟨taken, x, a, v, by simp [hx, Transaction.afterHalt, owner], owner, op⟩

theorem enterStarting_flushForm {s : State} (rest : s.restForm) (off : s.link.part = .disabled) :
    s.enterStarting.flushForm := by
  have staged : s.enterStarting.sensor.staged = [] :=
    ((enterStarting_restForm rest off).1 (enterStarting_atRest s)).2.2.2.2.2.1
  refine flushForm_of_none ?_ (by simp [staged])
  rw [enterStarting_sensor]
  split <;> rfl

theorem stage_flushForm {s : State} (hs : s.flushForm) {e : Staged} (waiting : e.inProgress = false) :
    (s.joinStaged e).flushForm := by
  obtain ⟨tail, head, write⟩ := hs
  refine ⟨?_, ?_, write⟩
  · show ∀ a ∈ (s.sensor.staged ++ [e]).tail, _
    cases hl : s.sensor.staged with
    | nil => simp
    | cons b rest =>
      rw [hl] at tail
      intro a ha
      obtain ha | ha := List.mem_append.mp (show a ∈ rest ++ [e] from ha)
      · exact tail a ha
      · rw [List.mem_singleton.mp ha, waiting]
  · show ∀ a, (s.sensor.staged ++ [e]).head? = some a → _
    cases hl : s.sensor.staged with
    | nil =>
      intro a ha writes
      obtain rfl : e = a := by simpa using ha
      exact absurd (waiting.symm.trans writes) Bool.false_ne_true
    | cons b rest =>
      rw [hl] at head
      exact head

theorem popStaged_flushForm {s : State} (hs : s.flushForm) {e : Staged} {rest : List Staged} (r : ControlResult)
    (hl : s.sensor.staged = e :: rest) : (s.popStaged rest r).flushForm := by
  obtain ⟨tail, -, write⟩ := hs
  rw [hl] at tail
  have frame := popStaged_frame rest r s
  have staged : (s.popStaged rest r).sensor.staged = rest := (handOver_frame _ _).get .staged
  refine ⟨fun a ha => ?_, fun a ha writes => ?_, ?_⟩
  · rw [staged] at ha
    exact tail a (List.mem_of_mem_tail ha)
  · rw [staged] at ha
    exact absurd ((tail a (List.mem_of_mem_head? ha)).symm.trans writes) Bool.false_ne_true
  · rw [show (s.popStaged rest r).sensor.flush = s.sensor.flush from frame.get .flush,
      show (s.popStaged rest r).sensor.port = s.sensor.port from frame.get .port]
    exact write

theorem discardWaiting_flushForm {s : State} (hs : s.flushForm) : s.discardWaiting.flushForm := by
  obtain ⟨tail, head, write⟩ := hs
  have frame := discardWaiting_frame s
  have front : ∀ a ∈ s.sensor.staged.filter Staged.inProgress, s.sensor.staged.head? = some a := fun a ha => by
    obtain ⟨ha, writes⟩ := List.mem_filter.mp ha
    cases hl : s.sensor.staged with
    | nil => simp [hl] at ha
    | cons b rest =>
      rw [hl] at ha tail
      obtain rfl | ha := List.mem_cons.mp ha
      · rfl
      · exact absurd ((tail a ha).symm.trans writes) Bool.false_ne_true
  have one : (s.sensor.staged.filter Staged.inProgress).tail = [] := by
    cases hl : s.sensor.staged with
    | nil => rfl
    | cons b rest =>
      rw [hl] at tail
      have none : rest.filter Staged.inProgress = [] := by simpa using tail
      rw [List.filter_cons, none]
      split <;> rfl
  refine ⟨?_, fun a ha writes => ?_, ?_⟩
  · rw [discardWaiting_staged, one]
    simp
  · rw [discardWaiting_staged] at ha
    rw [show s.discardWaiting.sensor.flush = s.sensor.flush from frame.get .flush]
    exact head a (front a (List.mem_of_mem_head? ha)) writes
  · rw [show s.discardWaiting.sensor.flush = s.sensor.flush from frame.get .flush,
      show s.discardWaiting.sensor.port = s.sensor.port from frame.get .port]
    exact write

theorem cutPower_flushForm {s : State} (hs : s.flushForm) : s.cutPower.flushForm := by
  refine flushForm_of_none (by rw [cutPower_sensor]; rfl) ?_
  rw [cutPower_sensor]
  show ∀ e ∈ (if (cutEntry s).isSome then s.sensor.staged.tail else s.sensor.staged), _
  obtain ⟨tail, head, -⟩ := hs
  split
  · exact tail
  · rename_i kept
    intro e he
    cases hl : s.sensor.staged with
    | nil => simp [hl] at he
    | cons a rest =>
      rw [hl] at he tail head
      obtain rfl | he := List.mem_cons.mp he
      · rw [← Bool.not_eq_true]
        intro writes
        exact kept (by simp [cutEntry, head e rfl writes, hl, writes, Option.filter_some])
      · exact tail e he

theorem flushForm_sustained : Sustained fun s => (s.restForm ∧ s.flushApart) ∧ s.flushForm :=
  (restForm_sustained.and fun _ hs hc => flushApart_sustained.keeps hs (hc.mono fun _ => And.right)).and
  fun {ps s t} hk hs hc => by
    obtain ⟨rest, apart⟩ := hk
    have frame := hc.unchanged
    cases hc
    case partReset => exact flushForm_of_none rfl fun e he => (List.not_mem_nil he).elim
    case enterHalted => exact enterHalted_flushForm _ _ hs
    case enterStarting off => exact enterStarting_flushForm rest off
    case leaveDrain drained =>
      obtain ⟨-, -, -, -, -, -, staged, -⟩ := (drained_iff s).mp drained
      rw [drainLeft_eq drained]
      refine flushForm_of_none rfl fun e he => ?_
      rw [show s.drainedSensor.staged = [] from staged] at he
      exact (List.not_mem_nil he).elim
    case stage waiting _ _ => exact stage_flushForm hs waiting
    case startEngine free _ => exact flushForm_of_port hs (fun x a v hx => absurd (free.symm.trans hx) (by simp)) rfl rfl
    case freePort y owner hy =>
      refine flushForm_of_port hs (fun x a v hx flush op => ?_) rfl rfl
      obtain rfl := Option.some.inj (hy.symm.trans hx)
      rw [flush, op] at owner
      simp at owner
    case endLeft y g owner hy =>
      refine flushForm_of_port hs (fun x a v hx flush => ?_) (frame.get .flush) (frame.get .staged)
      obtain rfl := Option.some.inj (hy.symm.trans hx)
      exact absurd (owner.symm.trans flush) (by simp)
    case beginFlush staged =>
      obtain ⟨e, more, hl⟩ := List.exists_cons_of_ne_nil staged
      have tail := hs.1
      rw [hl] at tail
      rw [beginFlush_of_staged hl]
      refine ⟨tail, fun _ _ _ => rfl, fun f hf => ?_⟩
      obtain rfl := Option.some.inj hf
      exact ⟨by simp, _, _, _, rfl, rfl, rfl⟩
    case popStaged hl => exact popStaged_flushForm hs _ hl
    case writeNext x e more owner hx hl =>
      have flush := apart.2.1 x hx owner
      have tail := hs.1
      rw [hl] at tail
      rw [writeFront_of_staged hl]
      refine ⟨tail, fun _ _ _ => by simpa using flush, fun f hf => ?_⟩
      obtain ⟨g, -, rfl⟩ := Option.map_eq_some_iff.mp hf
      exact ⟨by simp [Flush.takeOne], _, _, _, rfl, rfl, rfl⟩
    case endFlush waiting =>
      refine flushForm_of_none (closeFlush_flush s) ?_
      show ∀ e ∈ s.closeFlush.sensor.staged, _
      rw [closeFlush_staged]
      intro e he
      have tail := hs.1
      cases hl : s.sensor.staged with
      | nil => simp [hl] at he
      | cons a more =>
        rw [hl] at he tail waiting
        obtain rfl | he := List.mem_cons.mp he
        · exact waiting e rfl
        · exact tail e he
    case discardWaiting => exact discardWaiting_flushForm hs
    case cutPower => exact cutPower_flushForm hs
    case replayWrites h _ => exact flushForm_of_port hs (port_of_replayMayWrite h) rfl rfl
    case replayEnds h => exact flushForm_of_port hs (port_of_replayMayWrite h) rfl rfl
    all_goals exact flushForm_of_unchanged hs frame

/-- Settles O57: every change keeps a flush apart (`flushApart_sustained`), and with it, in a part that at rest holds no work,
the form of the staged list and of the flush's WRITE (`flushForm_sustained`). -/
theorem stepKeepsFlushAndExposureApart : Obligations.StepKeepsFlushAndExposureApart := by
  unfold Obligations.StepKeepsFlushAndExposureApart
  intro s t apart h
  refine ⟨flushApart_sustained.step apart h, fun form rest => ?_⟩
  exact (flushForm_sustained.step ⟨⟨rest, apart⟩, form⟩ h).2

end Sys2Proof.Machine
end

section
/-! SUPPORT for O55. The bounds of the lists, the form of the tables and the sensor addresses in hand, under every change. -/

set_option Elab.async false

namespace Sys2Proof.Machine

open Sys2Proof

/-! ## The bounds of the lists -/

/-- A change that leaves each list within its bound where it held, and begins no read without a place for what it reads. -/
theorem listsBounded_of {s t : State} (hs : s.listsBounded)
    (queue : t.sched.queue.length ≤ s.sched.queue.length)
    (capture : t.ring.capRead.isSome = true → s.ring.capRead.isSome = true ∨ t.sched.queue.length < 4)
    (cache : t.bufs.cache.length ≤ s.bufs.cache.length)
    (buffer : t.ring.bufRead.isSome = true → s.ring.bufRead.isSome = true ∨ t.bufs.cache.length < 32)
    (staged : t.sensor.staged.length ≤ s.sensor.staged.length)
    (store : (t.store.slices.map Slice.size).sum ≤ (s.store.slices.map Slice.size).sum) : t.listsBounded := by
  obtain ⟨hq, hcap, hc, hbuf, hst, hsl⟩ := hs
  refine ⟨by omega, fun h => ?_, by omega, fun h => ?_, by omega, by omega⟩
  · obtain h | h := capture h
    · have := hcap h
      omega
    · exact h
  · obtain h | h := buffer h
    · have := hbuf h
      omega
    · exact h

theorem listsBounded_of_unchanged {s t : State} (hs : s.listsBounded) {ps : List Part} (frame : unchangedBut ps s t)
    (staged : t.sensor.staged.length ≤ s.sensor.staged.length)
    (hps : ([Part.queue, .capRing, .cache, .bufRing, .store].all fun p => !ps.contains p) = true := by decide) :
    t.listsBounded := by
  simp only [List.all_cons, List.all_nil, Bool.and_true, Bool.and_eq_true, Bool.not_eq_true'] at hps
  obtain ⟨hq, hcap, hc, hbuf, hst⟩ := hps
  have queue := frame.get .queue hq
  have capture := frame.get .capRing hcap
  have cache := frame.get .cache hc
  have buffer := frame.get .bufRing hbuf
  have store := frame.get .store hst
  simp only [Part.same, Prod.mk.injEq] at queue capture cache buffer store
  exact listsBounded_of hs (by rw [queue]) (by rw [capture.2]; exact .inl) (by rw [cache])
    (by rw [buffer.2]; exact .inl) staged (by rw [store])

theorem staged_of_unchanged {s t : State} {ps : List Part} (frame : unchangedBut ps s t)
    (staged : ps.contains .staged = false := by decide) : t.sensor.staged.length ≤ s.sensor.staged.length :=
  Nat.le_of_eq (congrArg List.length (frame.get .staged staged))

theorem serve_cache_length (as : List Assignment) (cache : List CacheEntry) :
    (serve as cache).2.1.length ≤ cache.length := by
  induction as generalizing cache with
  | nil => exact Nat.le_refl _
  | cons a rest ih =>
    unfold serve
    split
    · exact ih cache
    · split
      · exact Nat.zero_le _
      · split
        · exact Nat.le_refl _
        · rename_i e more _
          exact Nat.le_trans (ih more) (Nat.le_succ _)

theorem joinQueue_listsBounded {s : State} (hs : s.listsBounded) (u : Setup) (data : List Byte)
    (read : s.ring.capRead.isSome = true) : (s.joinQueue u data).listsBounded := by
  have frame := joinQueue_frame u data s
  obtain ⟨-, hcap, hc, hbuf, hst, hsl⟩ := hs
  have room := hcap read
  have buffer := frame.get .bufRing
  simp only [Part.same, Prod.mk.injEq] at buffer
  unfold State.listsBounded
  rw [joinQueue_queue, joinQueue_capRead, buffer.2, show (s.joinQueue u data).bufs = s.bufs from frame.get .cache,
    show (s.joinQueue u data).sensor.staged = s.sensor.staged from frame.get .staged,
    show (s.joinQueue u data).store = s.store from frame.get .store]
  simp only [List.length_append, List.length_cons, List.length_nil]
  exact ⟨by omega, fun h => absurd h Bool.false_ne_true, hc, hbuf, hst, hsl⟩

theorem joinCache_listsBounded {s : State} (hs : s.listsBounded) (e : CacheEntry)
    (read : s.ring.bufRead.isSome = true) : (s.joinCache e).listsBounded := by
  have frame := joinCache_frame e s
  obtain ⟨hq, hcap, -, hbuf, hst, hsl⟩ := hs
  have room := hbuf read
  have capture := frame.get .capRing
  simp only [Part.same, Prod.mk.injEq] at capture
  have cache : (s.joinCache e).bufs.cache = s.bufs.cache ++ [e] := by
    show (s.advanceRing .buffer).bufs.cache ++ [e] = _
    rw [show (s.advanceRing .buffer).bufs = s.bufs from (advanceRing_frame .buffer s).get .cache]
  unfold State.listsBounded
  rw [cache, capture.2, show (s.joinCache e).ring.bufRead = none from advanceRing_noRead_buffer s,
    show (s.joinCache e).sched.queue = s.sched.queue from frame.get .queue,
    show (s.joinCache e).sensor.staged = s.sensor.staged from frame.get .staged,
    show (s.joinCache e).store = s.store from frame.get .store]
  simp only [List.length_append, List.length_cons, List.length_nil]
  exact ⟨hq, hcap, by omega, fun h => absurd h Bool.false_ne_true, hst, hsl⟩

theorem captureTest_listsBounded {s : State} (hs : s.listsBounded) : s.captureTest.listsBounded := by
  have frame := captureTest_frame s
  have buffer := frame.get .bufRing
  simp only [Part.same, Prod.mk.injEq] at buffer
  have queue : s.captureTest.sched.queue = s.sched.queue := frame.get .queue
  refine listsBounded_of hs (by rw [queue]) ?_ (by rw [show s.captureTest.bufs = s.bufs from frame.get .cache])
    (by rw [buffer.2]; exact .inl) (staged_of_unchanged frame) (by rw [show s.captureTest.store = s.store from frame.get .store])
  rw [queue]
  unfold State.captureTest
  split
  · split <;> exact .inl
  · split
    · rename_i may
      exact fun _ => .inr may.2.1
    · exact .inl

theorem bufferTest_listsBounded {s : State} (hs : s.listsBounded) : s.bufferTest.listsBounded := by
  have frame := bufferTest_frame s
  have capture := frame.get .capRing
  simp only [Part.same, Prod.mk.injEq] at capture
  have cache : s.bufferTest.bufs = s.bufs := frame.get .cache
  refine listsBounded_of hs (by rw [show s.bufferTest.sched.queue = s.sched.queue from frame.get .queue])
    (by rw [capture.2]; exact .inl) (by rw [cache]) ?_ (staged_of_unchanged frame)
    (by rw [show s.bufferTest.store = s.store from frame.get .store])
  rw [cache]
  unfold State.bufferTest
  split
  · rename_i may
    exact fun _ => .inr (Nat.lt_of_lt_of_le may.2.2.1 (Nat.min_le_left _ _))
  · exact .inl

theorem enterStarting_listsBounded {s : State} (hs : s.listsBounded) : s.enterStarting.listsBounded := by
  obtain ⟨-, -, -, -, hst, -⟩ := hs
  have staged : s.enterStarting.sensor.staged.length ≤ 32 := by
    rw [enterStarting_sensor]
    split
    · exact hst
    · exact Nat.zero_le _
  revert staged
  unfold State.enterStarting
  dsimp only
  generalize (if s.cpl.unsignalled ≠ 0 then s.raise Causes.onlyCompletion else s) = u
  split <;> exact fun staged => ⟨Nat.zero_le _, fun h => absurd h Bool.false_ne_true, Nat.zero_le _,
    fun h => absurd h Bool.false_ne_true, staged, Nat.zero_le _⟩

theorem listsBounded_sustained : Sustained State.listsBounded := ⟨fun {ps s t} hs hc => by
  have frame := hc.unchanged
  cases hc
  case captureTest => exact captureTest_listsBounded hs
  case bufferTest => exact bufferTest_listsBounded hs
  case partReset | enterHalted =>
    exact ⟨Nat.zero_le _, fun h => absurd h Bool.false_ne_true, Nat.zero_le _, fun h => absurd h Bool.false_ne_true,
      Nat.zero_le _, Nat.zero_le _⟩
  case enterStarting => exact enterStarting_listsBounded hs
  case joinQueue u data read _ => exact joinQueue_listsBounded hs u data read
  case joinCache e read => exact joinCache_listsBounded hs e read
  case stage e _ _ _ room =>
    obtain ⟨hq, hcap, hc, hbuf, -, hsl⟩ := hs
    refine ⟨hq, hcap, hc, hbuf, ?_, hsl⟩
    show (s.sensor.staged ++ [e]).length ≤ 32
    simp only [List.length_append, List.length_cons, List.length_nil]
    omega
  case returnEntry e rest reason h _ =>
    obtain ⟨hq, hcap, hcc, hbuf, hst, hsl⟩ := hs
    refine (listsBounded_of_unchanged (s := { s with bufs := { s.bufs with cache := rest } }) ?_ (handOver_frame _ _)
      (staged_of_unchanged (handOver_frame _ _)))
    rw [h] at hcc hbuf
    simp only [List.length_cons] at hcc hbuf
    exact ⟨hq, hcap, by show rest.length ≤ 32; omega, fun hr => by have := hbuf hr; show rest.length < 32; omega, hst, hsl⟩
  case serve as =>
    have shorter := serve_cache_length as s.bufs.cache
    exact listsBounded_of hs (Nat.le_refl _) .inl shorter .inl (Nat.le_refl _) (Nat.le_refl _)
  case queue q h =>
    have length : q.length = s.sched.queue.length := by simpa using congrArg List.length h
    exact listsBounded_of hs (Nat.le_of_eq length) .inl (Nat.le_refl _) .inl (Nat.le_refl _) (Nat.le_refl _)
  case dequeue e rest _ hq =>
    have shorter : rest.length ≤ s.sched.queue.length := by rw [hq]; exact Nat.le_succ _
    exact listsBounded_of_unchanged (listsBounded_of (t := { s with
        sched := { s.sched with queue := rest }
        seq := { s.seq with missed := 0 }
        cutter :=
          { s.cutter with
            windows := countRefs ((e.request.map CaptureRequest.windows).getD []) (· - 1) s.cutter.windows } }) hs
      shorter .inl (Nat.le_refl _) .inl (Nat.le_refl _) (Nat.le_refl _)) (handOver_frame _ _)
      (staged_of_unchanged (handOver_frame _ _))
  case accept sl fits =>
    obtain ⟨hq, hcap, hc, hbuf, hst, hsl⟩ := hs
    refine ⟨hq, hcap, hc, hbuf, hst, ?_⟩
    show ((s.store.slices ++ [sl]).map Slice.size).sum ≤ 131072
    unfold State.freeSpace at fits
    simp only [List.map_append, List.map_cons, List.map_nil, List.sum_append, List.sum_cons, List.sum_nil]
    have room : sl.size ≤ 131072 - (s.store.slices.map Slice.size).sum := Nat.le_of_not_lt fits
    omega
  case written sl rest hl =>
    refine listsBounded_of hs (Nat.le_refl _) .inl (Nat.le_refl _) .inl (Nat.le_refl _) ?_
    rw [hl]
    simp
  case beginFlush staged =>
    obtain ⟨e, more, hl⟩ := List.exists_cons_of_ne_nil staged
    exact listsBounded_of_unchanged hs frame (by rw [beginFlush_of_staged hl, hl]; exact Nat.le_refl _)
  case popStaged hl =>
    refine listsBounded_of_unchanged hs frame ?_
    rw [show (State.popStaged _ _ s).sensor.staged = _ from (handOver_frame _ _).get .staged, hl]
    exact Nat.le_succ _
  case writeNext hl =>
    exact listsBounded_of_unchanged hs frame (by rw [writeFront_of_staged hl, hl]; exact Nat.le_refl _)
  case discardWaiting =>
    exact listsBounded_of_unchanged hs frame (by rw [discardWaiting_staged]; exact List.length_filter_le _ _)
  case cutPower =>
    have staged := cutPower_staged s
    exact listsBounded_of_unchanged hs frame (by omega)
  all_goals exact listsBounded_of_unchanged hs frame (staged_of_unchanged frame)⟩

/-! ## The form of the tables -/

theorem tablesForm_of_unchanged {s t : State} (hs : s.tablesForm) {ps : List Part} (frame : unchangedBut ps s t)
    (windows : ps.contains .windows = false := by decide) (order : ps.contains .order = false := by decide) :
    t.tablesForm := by
  unfold State.tablesForm
  rw [show t.cutter.windows = s.cutter.windows from frame.get .windows windows,
    show t.cutter.order = s.cutter.order from frame.get .order order]
  exact hs

theorem tablesForm_of_windows {s t : State} (hs : s.tablesForm) {ps : List Part} (frame : unchangedBut ps s t)
    (windows : t.cutter.windows.length = s.cutter.windows.length) (order : ps.contains .order = false := by decide) :
    t.tablesForm := by
  refine ⟨windows.trans hs.1, ?_⟩
  rw [show t.cutter.order = s.cutter.order from frame.get .order order]
  exact hs.2

theorem enterStarting_windows (s : State) : s.enterStarting.cutter.windows.length = s.cutter.windows.length := by
  unfold State.enterStarting
  dsimp only
  have raised : (if s.cpl.unsignalled ≠ 0 then s.raise Causes.onlyCompletion else s).cutter = s.cutter := by split <;> rfl
  generalize (if s.cpl.unsignalled ≠ 0 then s.raise Causes.onlyCompletion else s) = u at raised ⊢
  rw [← raised]
  split
  · rfl
  · rw [enterHalted_windows, List.length_map]

theorem tablesForm_sustained : Sustained State.tablesForm := ⟨fun {ps s t} hs hc => by
  have frame := hc.unchanged
  cases hc
  case partReset => exact ⟨rfl, show isOrder (List.range 16) = true by decide⟩
  case enterHalted =>
    exact tablesForm_of_windows hs frame (by rw [enterHalted_windows, List.length_map])
  case enterStarting => exact tablesForm_of_windows hs frame (enterStarting_windows s)
  case joinQueue => exact tablesForm_of_windows hs frame (by rw [joinQueue_windows, countRefs_length])
  case dequeue => exact tablesForm_of_windows hs frame (by rw [dequeue_windows, countRefs_length])
  case window n w => exact tablesForm_of_windows hs frame (setWindow_length n w _)
  case order h => exact ⟨hs.1, h⟩
  all_goals exact tablesForm_of_unchanged hs frame⟩

/-! ## Sensor addresses in hand -/

/-- The sensor address that a record in hand names is one of the 512. -/
def JobForm (j : Option Job) : Prop := ∀ i a, j = some i → i.work.address = some a → a.toNat < 512

/-- The address of the transaction on the port is one of the 512. -/
def PortForm (p : Option Transaction) : Prop := ∀ t, p = some t → t.op.address.toNat < 512

theorem sensorForm_iff (s : State) : s.sensorForm ↔
    mirrorWf s.sensor.mirror = true ∧ (∀ e ∈ s.sensor.staged, e.address.toNat < 512) ∧ PortForm s.sensor.port ∧
      JobForm s.engine.job := Iff.rfl

theorem portForm_none : PortForm none := fun t h => by cases h

theorem jobForm_none : JobForm none := fun i a h => by cases h

theorem PortForm.map {p : Option Transaction} (h : PortForm p) {g : Transaction → Transaction} (op : ∀ t, (g t).op = t.op) :
    PortForm (p.map g) := fun t ht => by
  obtain ⟨x, hx, rfl⟩ := Option.map_eq_some_iff.mp ht
  rw [op]
  exact h x hx

theorem afterHalt_op (x : Transaction) : x.afterHalt.op = x.op := by
  unfold Transaction.afterHalt
  split <;> rfl

theorem leaveFlush_op (f : Option Flush) (x : Transaction) : (x.leaveFlush f).op = x.op := by
  unfold Transaction.leaveFlush
  split <;> rfl

/-- What a change leaves of the sensor addresses in hand. -/
theorem sensorForm_of {s t : State} (hs : s.sensorForm) (mirror : t.sensor.mirror = s.sensor.mirror)
    (staged : ∀ e ∈ t.sensor.staged, e.address.toNat < 512) (port : PortForm t.sensor.port)
    (job : JobForm t.engine.job) : t.sensorForm :=
  ⟨by rw [mirror]; exact hs.1, staged, port, job⟩

theorem sensorForm_of_unchanged {s t : State} (hs : s.sensorForm) {ps : List Part} (frame : unchangedBut ps s t)
    (hps : ([Part.mirror, .staged, .port, .engine].all fun p => !ps.contains p) = true := by decide) : t.sensorForm := by
  simp only [List.all_cons, List.all_nil, Bool.and_true, Bool.and_eq_true, Bool.not_eq_true'] at hps
  obtain ⟨mirror, staged, port, engine⟩ := hps
  unfold State.sensorForm
  rw [show t.sensor.mirror = s.sensor.mirror from frame.get .mirror mirror,
    show t.sensor.staged = s.sensor.staged from frame.get .staged staged,
    show t.sensor.port = s.sensor.port from frame.get .port port, show t.engine = s.engine from frame.get .engine engine]
  exact hs

theorem engineTest_sameJob (s : State) : s.engineTest.engine.job = s.engine.job := by
  unfold State.engineTest
  split
  · split
    · rfl
    · split <;> rfl
    · rfl
  · rfl

theorem engineDrain_sameJob (s : State) : s.engineDrain.engine.job = s.engine.job := by
  unfold State.engineDrain
  split <;> rfl

/-- A change of the engine that leaves the record in hand. -/
theorem sensorForm_of_engine {s t : State} (hs : s.sensorForm) {ps : List Part} (frame : unchangedBut ps s t)
    (job : JobForm t.engine.job)
    (hps : ([Part.mirror, .staged, .port].all fun p => !ps.contains p) = true := by decide) : t.sensorForm := by
  simp only [List.all_cons, List.all_nil, Bool.and_true, Bool.and_eq_true, Bool.not_eq_true'] at hps
  obtain ⟨mirror, staged, port⟩ := hps
  refine sensorForm_of hs (frame.get .mirror mirror) ?_ ?_ job
  · rw [show t.sensor.staged = s.sensor.staged from frame.get .staged staged]
    exact hs.2.1
  · rw [show t.sensor.port = s.sensor.port from frame.get .port port]
    exact hs.2.2.1

/-- A change of the mirror alone. -/
theorem sensorForm_of_mirror {s t : State} (hs : s.sensorForm) {ps : List Part} (frame : unchangedBut ps s t)
    (mirror : mirrorWf t.sensor.mirror = true)
    (hps : ([Part.staged, .port, .engine].all fun p => !ps.contains p) = true := by decide) : t.sensorForm := by
  simp only [List.all_cons, List.all_nil, Bool.and_true, Bool.and_eq_true, Bool.not_eq_true'] at hps
  obtain ⟨staged, port, engine⟩ := hps
  refine ⟨mirror, ?_, ?_, ?_⟩
  · rw [show t.sensor.staged = s.sensor.staged from frame.get .staged staged]
    exact hs.2.1
  · rw [show t.sensor.port = s.sensor.port from frame.get .port port]
    exact hs.2.2.1
  · rw [show t.engine = s.engine from frame.get .engine engine]
    exact hs.2.2.2

theorem enterStarting_sensorForm {s : State} (hs : s.sensorForm) : s.enterStarting.sensorForm := by
  obtain ⟨mirror, staged, port, -⟩ := hs
  have job : s.enterStarting.engine.job = none := by
    unfold State.enterStarting
    dsimp only
    generalize (if s.cpl.unsignalled ≠ 0 then s.raise Causes.onlyCompletion else s) = u
    split <;> rfl
  have started : PortForm s.startedSensor.port := PortForm.map port (leaveFlush_op _)
  rw [sensorForm_iff, job, enterStarting_sensor]
  split
  · exact ⟨mirror, staged, started, jobForm_none⟩
  · exact ⟨mirror, fun e he => (List.not_mem_nil he).elim, started.map afterHalt_op, jobForm_none⟩

theorem nextStale_mem {start : Nat} {m : List (Nat × MirrorEntry)} {p : Nat × MirrorEntry} (h : nextStale start m = some p) :
    p ∈ m ∧ p.2.stale = true ∧ start ≤ p.1 := by
  unfold nextStale at h
  have holds := List.find?_some h
  simp only [Bool.and_eq_true, decide_eq_true_eq] at holds
  exact ⟨List.mem_of_find?_eq_some h, holds⟩

theorem mirrorWf_lt {m : List (Nat × MirrorEntry)} (h : mirrorWf m = true) {p : Nat × MirrorEntry} (hp : p ∈ m) :
    p.1 < 512 := ((mirrorWf_iff m).mp h).2 p hp

theorem staleAddress_lt {m : List (Nat × MirrorEntry)} (h : mirrorWf m = true) {start : Nat} {p : Nat × MirrorEntry}
    (hp : nextStale start m = some p) : (BitVec.ofNat 16 p.1).toNat = p.1 ∧ p.1 < 512 := by
  have below := mirrorWf_lt h (nextStale_mem hp).1
  exact ⟨Nat.mod_eq_of_lt (by omega), below⟩

theorem sensorForm_sustained : Sustained State.sensorForm := ⟨fun {ps s t} hs hc => by
  have frame := hc.unchanged
  obtain ⟨mirror, staged, port, job⟩ := hs
  have hs : s.sensorForm := ⟨mirror, staged, port, job⟩
  cases hc
  case engineTest => exact sensorForm_of_engine hs frame (by rw [engineTest_sameJob]; exact job)
  case engineDrain => exact sensorForm_of_engine hs frame (by rw [engineDrain_sameJob]; exact job)
  case partReset => exact ⟨rfl, fun e he => (List.not_mem_nil he).elim, portForm_none, jobForm_none⟩
  case enterHalted =>
    rw [sensorForm_iff, enterHalted_sensor]
    exact ⟨mirror, fun e he => (List.not_mem_nil he).elim, PortForm.map port afterHalt_op, jobForm_none⟩
  case enterStarting => exact enterStarting_sensorForm hs
  case leaveDrain drained =>
    rw [drainLeft_eq drained]
    exact ⟨mirror, staged, portForm_none, job⟩
  case takeRecord =>
    refine sensorForm_of_engine hs frame ?_
    show JobForm (s.advanceRing .control).engine.job
    rw [show (s.advanceRing .control).engine = s.engine from (advanceRing_frame .control s).get .engine]
    exact job
  case finish => exact sensorForm_of_engine hs frame jobForm_none
  case hold j address _ => exact sensorForm_of_engine hs frame fun i a hi => by cases hi; exact address a
  case stage e address _ _ _ =>
    refine ⟨mirror, fun a ha => ?_, port, jobForm_none⟩
    obtain ha | ha := List.mem_append.mp (show a ∈ s.sensor.staged ++ [e] from ha)
    · exact staged a ha
    · rw [List.mem_singleton.mp ha]
      exact address
  case grantEngine => exact ⟨mirror, staged, port, job⟩
  case startEngine j op address free hj =>
    refine ⟨mirror, staged, fun x hx => ?_, job⟩
    obtain rfl := Option.some.inj hx
    refine job j op.address hj ?_
    cases hw : j.work <;> simp [hw, Work.op] at address <;> subst address <;> rfl
  case freePort => exact ⟨mirror, staged, portForm_none, job⟩
  case recordWrite a v h =>
    obtain ⟨u, x, hu, hx, op⟩ := h
    have below := hu.2.2.1 x hx
    rw [op] at below
    exact sensorForm_of_mirror hs frame (mirrorSet_wf _ _ _ below mirror)
  case endLeft =>
    refine sensorForm_of hs (frame.get .mirror) ?_ portForm_none ?_
    · rw [show s.closeLeftFlush.freePort.sensor.staged = s.sensor.staged from frame.get .staged]
      exact staged
    · rw [show s.closeLeftFlush.freePort.engine = s.engine from frame.get .engine]
      exact job
  case beginFlush some =>
    obtain ⟨e, more, hl⟩ := List.exists_cons_of_ne_nil some
    rw [hl] at staged
    rw [beginFlush_of_staged hl]
    refine ⟨mirror, fun a ha => ?_, fun x hx => ?_, job⟩
    · obtain rfl | ha := List.mem_cons.mp ha
      · exact staged e (by simp)
      · exact staged a (by simp [ha])
    · obtain rfl := Option.some.inj hx
      exact staged e (by simp)
  case popStaged e rest r _ hl =>
    rw [hl] at staged
    refine sensorForm_of hs (frame.get .mirror) ?_ ?_ ?_
    · rw [show (State.popStaged _ _ s).sensor.staged = _ from (handOver_frame _ _).get .staged]
      exact fun a ha => staged a (by simp [ha])
    · rw [show (State.popStaged _ _ s).sensor.port = s.sensor.port from frame.get .port]
      exact port
    · rw [show (State.popStaged _ _ s).engine = s.engine from frame.get .engine]
      exact job
  case writeNext e rest _ _ hl =>
    rw [hl] at staged
    rw [writeFront_of_staged hl]
    refine ⟨mirror, fun a ha => ?_, fun x hx => ?_, job⟩
    · obtain rfl | ha := List.mem_cons.mp ha
      · exact staged e (by simp)
      · exact staged a (by simp [ha])
    · obtain rfl := Option.some.inj hx
      exact staged e (by simp)
  case endFlush =>
    refine sensorForm_of hs (frame.get .mirror) ?_ portForm_none ?_
    · rw [show s.closeFlush.freePort.sensor.staged = s.sensor.staged from frame.get .staged]
      exact staged
    · rw [show s.closeFlush.freePort.engine = s.engine from frame.get .engine]
      exact job
  case discardWaiting =>
    refine sensorForm_of hs (frame.get .mirror) ?_ ?_ ?_
    · rw [discardWaiting_staged]
      exact fun a ha => staged a (List.mem_filter.mp ha).1
    · rw [show s.discardWaiting.sensor.port = s.sensor.port from frame.get .port]
      exact port
    · rw [show s.discardWaiting.engine = s.engine from frame.get .engine]
      exact job
  case cutPower =>
    rw [sensorForm_iff, show s.cutPower.engine = s.engine from frame.get .engine, cutPower_sensor]
    refine ⟨mirrorStale_wf _ mirror, fun a ha => staged a ?_, portForm_none, job⟩
    replace ha : a ∈ (if (cutEntry s).isSome then s.sensor.staged.tail else s.sensor.staged) := ha
    split at ha
    · exact List.mem_of_mem_tail ha
    · exact ha
  case applyPower replay _ =>
    refine sensorForm_of_mirror hs frame ?_
    show mirrorWf (if replay then s.sensor.mirror else mirrorForget s.sensor.mirror) = true
    split
    · exact mirror
    · exact mirrorForget_wf _ mirror
  case replayCounted x ok a v owner op hx =>
    have below := port x hx
    rw [op] at below
    refine sensorForm_of_mirror hs frame ?_
    cases ok
    · exact mirrorErase_wf _ _ mirror
    · exact mirrorSet_wf _ _ _ below mirror
  case replayWrites p _ _ stale =>
    obtain ⟨same, below⟩ := staleAddress_lt mirror stale
    refine ⟨mirror, staged, fun x hx => ?_, job⟩
    obtain rfl := Option.some.inj hx
    show (BitVec.ofNat 16 p.1).toNat < 512
    rw [same]
    exact below
  case replayEnds => exact ⟨mirror, staged, portForm_none, job⟩
  all_goals exact sensorForm_of_unchanged hs frame⟩

/-- Settles O55: every change keeps the bounds (`listsBounded_sustained`), the tables (`tablesForm_sustained`) and the sensor
addresses (`sensorForm_sustained`). -/
theorem stepKeepsListsAndTables : Obligations.StepKeepsListsAndTables := by
  unfold Obligations.StepKeepsListsAndTables
  intro s t lists tables sensor h
  exact ⟨listsBounded_sustained.step lists h, tablesForm_sustained.step tables h, sensorForm_sustained.step sensor h⟩

end Sys2Proof.Machine
end

section
/-! SUPPORT for O56. The interrupt line, the power outputs, the replay and the TRIGGER filter under every change. -/

set_option Elab.async false

namespace Sys2Proof.Machine

open Sys2Proof

/-! ## The interrupt line -/

theorem lineFollows_of_unchanged {s t : State} (hs : s.lineFollows) {ps : List Part} (frame : unchangedBut ps s t)
    (hps : ([Part.msi, .line, .cause, .mask].all fun p => !ps.contains p) = true := by decide) : t.lineFollows := by
  simp only [List.all_cons, List.all_nil, Bool.and_true, Bool.and_eq_true, Bool.not_eq_true'] at hps
  obtain ⟨msi, line, cause, mask⟩ := hps
  unfold State.lineFollows State.signalling
  rw [show t.link.line = s.link.line from frame.get .line line, show t.link.msi = s.link.msi from frame.get .msi msi,
    show t.cpl.cause = s.cpl.cause from frame.get .cause cause, show t.cpl.mask = s.cpl.mask from frame.get .mask mask]
  exact hs

/-- The pieces that the line and its condition are made of. -/
theorem lineFollows_of_same {s t : State} (hs : s.lineFollows) (link : t.link.line = s.link.line ∧ t.link.msi = s.link.msi)
    (causes : t.cpl.cause = s.cpl.cause ∧ t.cpl.mask = s.cpl.mask) : t.lineFollows := by
  unfold State.lineFollows State.signalling
  rw [link.1, link.2, causes.1, causes.2]
  exact hs

theorem writeSlots_signals (u : Setup) (c : Completion) (s : State) :
    ((s.writeSlots u c).link.line = s.link.line ∧ (s.writeSlots u c).link.msi = s.link.msi) ∧
      (s.writeSlots u c).cpl.cause = s.cpl.cause ∧ (s.writeSlots u c).cpl.mask = s.cpl.mask := by
  unfold State.writeSlots
  dsimp only
  split <;> exact ⟨⟨rfl, rfl⟩, rfl, rfl⟩

theorem handOver_lineFollows {s : State} (hs : s.lineFollows) (c : Completion) : (s.handOver c).lineFollows := by
  unfold State.handOver
  split
  · exact hs
  · obtain ⟨link, causes⟩ := writeSlots_signals ‹Setup› c s
    unfold State.coalesce
    split
    · exact raise_lineFollows _ _
    · exact lineFollows_of_same hs link causes

theorem foldHandOver_lineFollows {α : Type} (l : List α) (g : α → Completion) {s : State} (hs : s.lineFollows) :
    (l.foldl (fun s e => s.handOver (g e)) s).lineFollows := by
  induction l generalizing s with
  | nil => exact hs
  | cons e rest ih => exact ih (handOver_lineFollows hs (g e))

theorem enterStarting_lineFollows {s : State} (hs : s.lineFollows) : s.enterStarting.lineFollows := by
  have raised : (if s.cpl.unsignalled ≠ 0 then s.raise Causes.onlyCompletion else s).lineFollows := by
    split
    · exact raise_lineFollows _ _
    · exact hs
  revert raised
  unfold State.enterStarting
  dsimp only
  generalize (if s.cpl.unsignalled ≠ 0 then s.raise Causes.onlyCompletion else s) = u
  intro raised
  split
  · exact raised
  · exact raise_lineFollows _ _

theorem cutPower_lineFollows {s : State} (hs : s.lineFollows) : s.cutPower.lineFollows := by
  have folded := foldHandOver_lineFollows
    (cutCompletions { s with sensor := { s.sensor with settle := none } }) (fun c => c)
    (lineFollows_of_same (t := { s with sensor := { s.sensor with settle := none } }) hs ⟨rfl, rfl⟩ ⟨rfl, rfl⟩)
  refine lineFollows_of_same (s := ({ s with sensor := { s.sensor with settle := none } } : State).cutPort) ?_ ⟨rfl, rfl⟩
    ⟨rfl, rfl⟩
  rw [cutPort_eq]
  exact lineFollows_of_same folded ⟨rfl, rfl⟩ ⟨rfl, rfl⟩

theorem lineFollows_sustained : Sustained State.lineFollows := ⟨fun {ps s t} hs hc => by
  have frame := hc.unchanged
  cases hc
  case causes c m => exact setCauses_lineFollows c m s
  case messages b => rfl
  case partReset keepConfig pin => exact (Bool.and_false _).symm
  case enterHalted => exact raise_lineFollows _ _
  case enterStarting => exact enterStarting_lineFollows hs
  case finish => exact lineFollows_of_same (handOver_lineFollows hs _) ⟨rfl, rfl⟩ ⟨rfl, rfl⟩
  case returnEntry =>
    refine handOver_lineFollows ?_ _
    exact lineFollows_of_same hs ⟨rfl, rfl⟩ ⟨rfl, rfl⟩
  case postFrame => exact lineFollows_of_unchanged (handOver_lineFollows hs _) (setCtx_frame _ _ _)
  case dequeue =>
    refine handOver_lineFollows ?_ _
    exact lineFollows_of_same hs ⟨rfl, rfl⟩ ⟨rfl, rfl⟩
  case popStaged =>
    refine handOver_lineFollows ?_ _
    exact lineFollows_of_same hs ⟨rfl, rfl⟩ ⟨rfl, rfl⟩
  case discardWaiting =>
    exact foldHandOver_lineFollows _ _ (lineFollows_of_same hs ⟨rfl, rfl⟩ ⟨rfl, rfl⟩)
  case cutPower => exact cutPower_lineFollows hs
  all_goals exact lineFollows_of_unchanged hs frame⟩

/-! ## The power state and the replay -/

theorem replayHoldsPort_none {s : State} (h : s.sensor.port = none) : ¬ s.replayHoldsPort := fun ⟨x, hx, _⟩ => by
  rw [h] at hx
  cases hx

theorem replayHoldsPort_some {s : State} {x : Transaction} (h : s.sensor.port = some x) :
    s.replayHoldsPort ↔ x.owner = .replay :=
  ⟨fun ⟨y, hy, owner⟩ => by rw [Option.some.inj (h.symm.trans hy)]; exact owner, fun owner => ⟨x, h, owner⟩⟩

theorem not_replayHoldsPort_of_owner {s : State} {x : Transaction} (h : s.sensor.port = some x) (owner : x.owner ≠ .replay) :
    ¬ s.replayHoldsPort := fun holds => owner ((replayHoldsPort_some h).mp holds)

/-- The owner of the transaction on the port is changed, from and to one that is not the replay. -/
theorem replayHoldsPort_map {s t : State} {g : Transaction → Transaction} (h : t.sensor.port = s.sensor.port.map g)
    (owner : ∀ x, (g x).owner = .replay ↔ x.owner = .replay) : t.replayHoldsPort ↔ s.replayHoldsPort := by
  unfold State.replayHoldsPort
  rw [h]
  cases s.sensor.port with
  | none => simp
  | some x => simp [owner]

theorem afterHalt_replay (x : Transaction) : x.afterHalt.owner = .replay ↔ x.owner = .replay := by
  unfold Transaction.afterHalt
  split <;> simp_all

theorem leaveFlush_replay (f : Option Flush) (x : Transaction) : (x.leaveFlush f).owner = .replay ↔ x.owner = .replay := by
  unfold Transaction.leaveFlush
  split <;> simp_all

/-- Two states with the same power outputs, and with the same waiting replay. -/
def SamePower (s t : State) : Prop :=
  t.sensor.power = s.sensor.power ∧ t.sensor.enableOut = s.sensor.enableOut ∧ t.sensor.settle = s.sensor.settle ∧
    t.sensor.replayWaits = s.sensor.replayWaits

/-- A change of the transaction on the port that gives the replay none. -/
theorem powerForm_of_port {s t : State} (hs : s.powerForm) (same : SamePower s t)
    (port : t.replayHoldsPort ↔ s.replayHoldsPort) : t.powerForm := by
  obtain ⟨power, enable, settle, waits⟩ := same
  unfold State.powerForm
  rw [power, enable, settle, waits, port]
  exact hs

/-- A change that leaves the port free or to another than the replay. -/
theorem powerForm_of_noReplay {s t : State} (hs : s.powerForm) (same : SamePower s t) (after : ¬ t.replayHoldsPort) :
    t.powerForm := by
  obtain ⟨power, enable, settle, waits⟩ := same
  obtain ⟨hEnable, hSettle, hWaits, -⟩ := hs
  unfold State.powerForm
  rw [power, enable, settle, waits]
  exact ⟨hEnable, hSettle, fun h => ⟨(hWaits h).1, after⟩, fun h => absurd h after⟩

theorem SamePower.of_unchanged {s t : State} {ps : List Part} (frame : unchangedBut ps s t)
    (power : ps.contains .power = false := by decide) (waits : ps.contains .waits = false := by decide) : SamePower s t := by
  have power := frame.get .power power
  have waits := frame.get .waits waits
  simp only [Part.same, Prod.mk.injEq] at power waits
  exact ⟨power.1, power.2.1, power.2.2.1, waits.1⟩

theorem powerForm_of_unchanged {s t : State} (hs : s.powerForm) {ps : List Part} (frame : unchangedBut ps s t)
    (hps : ([Part.power, .waits, .port].all fun p => !ps.contains p) = true := by decide) : t.powerForm := by
  simp only [List.all_cons, List.all_nil, Bool.and_true, Bool.and_eq_true, Bool.not_eq_true'] at hps
  obtain ⟨power, waits, port⟩ := hps
  refine powerForm_of_port hs (.of_unchanged frame power waits) ?_
  unfold State.replayHoldsPort
  rw [show t.sensor.port = s.sensor.port from frame.get .port port]

/-- With no replay on the port and none that waits, the outputs alone follow the power state. -/
theorem powerForm_idle {s : State} (enable : s.sensor.enableOut = decide (s.sensor.power ≠ .off))
    (settle : s.sensor.settle.isSome = true ↔ s.sensor.power = .settling) (waits : s.sensor.replayWaits = false)
    (port : ¬ s.replayHoldsPort) : s.powerForm :=
  ⟨enable, settle, fun h => absurd (waits.symm.trans h) Bool.false_ne_true, fun h => absurd h port⟩

theorem powerForm_quiet {s : State} (hs : s.powerForm) (h : s.sensor.power ≠ .replaying) :
    s.sensor.replayWaits = false ∧ ¬ s.replayHoldsPort :=
  ⟨Bool.eq_false_iff.mpr fun waits => h (hs.2.2.1 waits).1, fun holds => h (hs.2.2.2 holds)⟩

/-- A replay that may use the port is under way, and does not wait once it has it. -/
theorem replaying_of_replayMayWrite {s : State} (hs : s.powerForm) {waits : Bool} (h : s.replayMayWrite waits) :
    s.sensor.power = .replaying ∧ waits = false := by
  obtain ⟨-, -, hWaits, hHolds⟩ := hs
  obtain ⟨-, waiting, rfl⟩ | ⟨holds, rfl⟩ | ⟨stands, rfl⟩ := h
  · exact ⟨(hWaits waiting).1, rfl⟩
  · exact ⟨hHolds holds, Bool.eq_false_iff.mpr fun waiting => (hWaits waiting).2 holds⟩
  · obtain ⟨power, waiting, -⟩ := (replayStands_iff s).mp stands
    exact ⟨power, waiting⟩

theorem enterStarting_port (s : State) : ∃ g : Transaction → Transaction,
    s.enterStarting.sensor.port = s.sensor.port.map g ∧ (∀ x, (g x).owner = .replay ↔ x.owner = .replay) ∧
      ∀ x, (g x).op = x.op := by
  rw [enterStarting_sensor]
  split
  · exact ⟨_, rfl, leaveFlush_replay _, leaveFlush_op _⟩
  · exact ⟨_, Option.map_map .., fun x => (afterHalt_replay _).trans (leaveFlush_replay _ x),
      fun x => (afterHalt_op _).trans (leaveFlush_op _ x)⟩

theorem enterStarting_powerForm {s : State} (hs : s.powerForm) : s.enterStarting.powerForm := by
  obtain ⟨g, port, owner, -⟩ := enterStarting_port s
  refine powerForm_of_port hs ?_ (replayHoldsPort_map port owner)
  unfold SamePower
  rw [enterStarting_sensor]
  split <;> exact ⟨rfl, rfl, rfl, rfl⟩

theorem powerForm_sustained : Sustained State.powerForm := ⟨fun {ps s t} hs hc => by
  have frame := hc.unchanged
  cases hc
  case partReset => exact powerForm_idle rfl (by simp [State.partReset, State.reset]) rfl (replayHoldsPort_none rfl)
  case enterHalted cause d =>
    have sensor := enterHalted_sensor cause d s
    exact powerForm_of_port hs (by unfold SamePower; rw [sensor]; exact ⟨rfl, rfl, rfl, rfl⟩)
      (replayHoldsPort_map (by rw [sensor]) afterHalt_replay)
  case enterStarting => exact enterStarting_powerForm hs
  case leaveDrain drained =>
    rw [drainLeft_eq drained]
    exact powerForm_idle hs.1 hs.2.1 rfl (replayHoldsPort_none rfl)
  case startEngine => exact powerForm_of_noReplay hs ⟨rfl, rfl, rfl, rfl⟩ (not_replayHoldsPort_of_owner rfl nofun)
  case freePort => exact powerForm_of_noReplay hs ⟨rfl, rfl, rfl, rfl⟩ (replayHoldsPort_none rfl)
  case endLeft => exact powerForm_of_noReplay hs (.of_unchanged frame) (replayHoldsPort_none rfl)
  case beginFlush some =>
    obtain ⟨e, more, hl⟩ := List.exists_cons_of_ne_nil some
    rw [beginFlush_of_staged hl]
    exact powerForm_of_noReplay hs ⟨rfl, rfl, rfl, rfl⟩ (not_replayHoldsPort_of_owner rfl nofun)
  case writeNext hl =>
    rw [writeFront_of_staged hl]
    exact powerForm_of_noReplay hs ⟨rfl, rfl, rfl, rfl⟩ (not_replayHoldsPort_of_owner rfl nofun)
  case endFlush => exact powerForm_of_noReplay hs (.of_unchanged frame) (replayHoldsPort_none rfl)
  case cutPower =>
    have sensor := cutPower_sensor s
    refine powerForm_idle ?_ ?_ ?_ (replayHoldsPort_none ?_) <;> rw [sensor]
    · rfl
    · simp
    · rfl
    · rfl
  case waits => exact powerForm_of_port hs ⟨rfl, rfl, rfl, rfl⟩ Iff.rfl
  case applyPower off =>
    obtain ⟨waits, port⟩ := powerForm_quiet hs (by rw [off]; decide)
    exact powerForm_idle rfl (by simp [State.applyPower]) waits port
  case settleToReplay settling =>
    obtain ⟨-, port⟩ := powerForm_quiet hs (by rw [settling]; decide)
    obtain ⟨enable, -⟩ := hs
    rw [settling] at enable
    exact ⟨enable, by simp, fun _ => ⟨rfl, port⟩, fun _ => rfl⟩
  case settleToReady settling =>
    obtain ⟨waits, port⟩ := powerForm_quiet hs (by rw [settling]; decide)
    obtain ⟨enable, -⟩ := hs
    rw [settling] at enable
    exact powerForm_idle enable (by simp) waits port
  case replayWrites may _ =>
    obtain ⟨power, rfl⟩ := replaying_of_replayMayWrite hs may
    obtain ⟨enable, settle, -⟩ := hs
    exact ⟨enable, settle, fun h => absurd h Bool.false_ne_true, fun _ => power⟩
  case replayEnds may =>
    obtain ⟨power, rfl⟩ := replaying_of_replayMayWrite hs may
    obtain ⟨enable, settle, -⟩ := hs
    rw [power] at enable settle
    exact powerForm_idle enable (by simpa using settle) rfl (replayHoldsPort_none rfl)
  all_goals exact powerForm_of_unchanged hs frame⟩

/-! ## The position and the counts of a replay -/

theorem replayForm_of {s t : State} (hs : s.replayForm) (power : t.sensor.power = s.sensor.power)
    (counts : t.sensor.replayPos = s.sensor.replayPos ∧ t.sensor.replayed = s.sensor.replayed ∧
      t.sensor.failed = s.sensor.failed)
    (port : ∀ x, t.sensor.port = some x → x.owner = .replay → x.op.address.toNat < s.sensor.replayPos) : t.replayForm := by
  obtain ⟨pos, replayed, failed⟩ := counts
  unfold State.replayForm
  rw [power, pos, replayed, failed]
  exact ⟨hs.1, port⟩

theorem replayForm_of_unchanged {s t : State} (hs : s.replayForm) {ps : List Part} (frame : unchangedBut ps s t)
    (port : ∀ x, t.sensor.port = some x → x.owner = .replay → x.op.address.toNat < s.sensor.replayPos)
    (hps : ([Part.power, .replay].all fun p => !ps.contains p) = true := by decide) : t.replayForm := by
  simp only [List.all_cons, List.all_nil, Bool.and_true, Bool.and_eq_true, Bool.not_eq_true'] at hps
  have power := frame.get .power hps.1
  have counts := frame.get .replay hps.2
  simp only [Part.same, Prod.mk.injEq] at power counts
  exact replayForm_of hs power.1 counts port

theorem replayForm_of_same {s t : State} (hs : s.replayForm) {ps : List Part} (frame : unchangedBut ps s t)
    (hps : ([Part.power, .replay].all fun p => !ps.contains p) = true := by decide)
    (port : ps.contains .port = false := by decide) : t.replayForm :=
  replayForm_of_unchanged hs frame (by rw [show t.sensor.port = s.sensor.port from frame.get .port port]; exact hs.2) hps

theorem replayForm_map {s t : State} (hs : s.replayForm) {ps : List Part} (frame : unchangedBut ps s t)
    {g : Transaction → Transaction} (port : t.sensor.port = s.sensor.port.map g)
    (owner : ∀ x, (g x).owner = .replay ↔ x.owner = .replay) (op : ∀ x, (g x).op = x.op)
    (hps : ([Part.power, .replay].all fun p => !ps.contains p) = true := by decide) : t.replayForm := by
  refine replayForm_of_unchanged hs frame (fun y hy replay => ?_) hps
  rw [port] at hy
  obtain ⟨x, hx, rfl⟩ := Option.map_eq_some_iff.mp hy
  rw [op]
  exact hs.2 x hx ((owner x).mp replay)

theorem replayForm_of_noReplay {s t : State} (hs : s.replayForm) {ps : List Part} (frame : unchangedBut ps s t)
    (port : ¬ t.replayHoldsPort) (hps : ([Part.power, .replay].all fun p => !ps.contains p) = true := by decide) :
    t.replayForm :=
  replayForm_of_unchanged hs frame (fun x hx replay => absurd ⟨x, hx, replay⟩ port) hps

/-- With no position, no counts and no replay on the port the form holds in every power state. -/
theorem replayForm_none {s : State} (pos : s.sensor.replayPos = 0) (replayed : s.sensor.replayed = 0)
    (failed : s.sensor.failed = 0) (port : ¬ s.replayHoldsPort) : s.replayForm :=
  ⟨fun _ => ⟨pos, replayed, failed⟩, fun x hx replay => absurd ⟨x, hx, replay⟩ port⟩

theorem replayForm_sustained : Sustained fun s => s.powerForm ∧ s.replayForm :=
  powerForm_sustained.and fun {ps s t} power hs hc => by
  have frame := hc.unchanged
  cases hc
  case partReset => exact replayForm_none rfl rfl rfl (replayHoldsPort_none rfl)
  case enterHalted cause d =>
    exact replayForm_map hs frame (by rw [enterHalted_sensor]) afterHalt_replay afterHalt_op
  case enterStarting =>
    obtain ⟨g, port, owner, op⟩ := enterStarting_port s
    exact replayForm_map hs frame port owner op
  case leaveDrain drained =>
    rw [drainLeft_eq drained]
    exact replayForm_none rfl rfl rfl (replayHoldsPort_none rfl)
  case startEngine => exact replayForm_of_noReplay hs frame (not_replayHoldsPort_of_owner rfl nofun)
  case freePort | endLeft | endFlush => exact replayForm_of_noReplay hs frame (replayHoldsPort_none rfl)
  case beginFlush some =>
    obtain ⟨e, more, hl⟩ := List.exists_cons_of_ne_nil some
    refine replayForm_of_noReplay hs frame ?_
    rw [beginFlush_of_staged hl]
    exact not_replayHoldsPort_of_owner rfl nofun
  case writeNext hl =>
    refine replayForm_of_noReplay hs frame ?_
    rw [writeFront_of_staged hl]
    exact not_replayHoldsPort_of_owner rfl nofun
  case cutPower =>
    have sensor := cutPower_sensor s
    exact replayForm_none (by rw [sensor]) (by rw [sensor]) (by rw [sensor])
      (replayHoldsPort_none (by rw [sensor]; rfl))
  case applyPower off =>
    obtain ⟨-, port⟩ := powerForm_quiet power (by rw [off]; decide)
    exact replayForm_none rfl rfl rfl port
  case settleToReplay settling =>
    obtain ⟨-, port⟩ := powerForm_quiet power (by rw [settling]; decide)
    exact ⟨fun h => absurd rfl h, fun x hx replay => absurd ⟨x, hx, replay⟩ port⟩
  case settleToReady settling =>
    obtain ⟨-, port⟩ := powerForm_quiet power (by rw [settling]; decide)
    exact replayForm_none rfl rfl rfl port
  case replayCounted x ok a v owner op hx =>
    have replaying : (s.replayCounted ok a v).sensor.power = .replaying := by
      have same := frame.get .power
      simp only [Part.same, Prod.mk.injEq] at same
      exact same.1.trans (power.2.2.2 ⟨x, hx, owner⟩)
    have pos : (s.replayCounted ok a v).sensor.replayPos = s.sensor.replayPos := by cases ok <;> rfl
    refine ⟨fun h => absurd replaying h, ?_⟩
    rw [pos, show (s.replayCounted ok a v).sensor.port = s.sensor.port from frame.get .port]
    exact hs.2
  case replayWrites p waits may _ =>
    obtain ⟨replaying, -⟩ := replaying_of_replayMayWrite power may
    refine ⟨fun h => absurd replaying h, fun x hx _ => ?_⟩
    obtain rfl := Option.some.inj hx
    exact Nat.lt_succ_of_le (Nat.mod_le _ _)
  case replayEnds => exact replayForm_none rfl rfl rfl (replayHoldsPort_none rfl)
  all_goals exact replayForm_of_same hs frame

/-! ## The TRIGGER filter -/

theorem pinChanges_filterForm (level : Level) {s : State} (hs : s.filterForm) : (s.pinChanges level).filterForm := by
  unfold State.pinChanges
  split
  · exact hs
  · unfold State.filterForm
    dsimp only
    split
    · simp_all
    · rename_i differs
      exact ⟨fun _ h => differs h.symm, fun _ => rfl⟩

theorem filterForm_sustained : Sustained State.filterForm := ⟨fun {ps s t} hs hc => by
  have frame := hc.unchanged
  have same (h : ps.contains .trigger = false) : t.filterForm := by
    have trigger := frame.get .trigger h
    simp only [Part.same, Prod.mk.injEq] at trigger
    obtain ⟨level, pin, hold⟩ := trigger
    unfold State.filterForm
    rw [level, pin, hold]
    exact hs
  cases hc
  case partReset => simp [State.filterForm, State.partReset, State.reset]
  case pinChanges level => exact pinChanges_filterForm level hs
  case filtered => simp [State.filterForm]
  all_goals exact same (by decide)⟩

/-- Settles O56: every change keeps the line (`lineFollows_sustained`), the power outputs (`powerForm_sustained`), the replay
beside them (`replayForm_sustained`) and the filter (`filterForm_sustained`). -/
theorem stepKeepsLineAndPower : Obligations.StepKeepsLineAndPower := by
  unfold Obligations.StepKeepsLineAndPower
  intro s t line power h
  exact ⟨lineFollows_sustained.step line h, powerForm_sustained.step power h,
    fun replay => (replayForm_sustained.step ⟨power, replay⟩ h).2, fun filter => filterForm_sustained.step filter h⟩

end Sys2Proof.Machine
end

section
/-! PROOFS of O1, O10 to O16 and O19: the step of a command, the interrupt registers, the tail registers and CPL_HEAD, and
what arrives for no read in progress. -/

set_option Elab.async false

namespace Sys2Proof.Machine

open Sys2Proof

/-! ## A step -/

/-- Settles O1, by the definition of a step on a queue that is not empty. -/
theorem stepRunsTheFrontCommand : Obligations.StepRunsTheFrontCommand := by
  unfold Obligations.StepRunsTheFrontCommand
  intro c rest s pending
  unfold step
  rw [pending]

/-- Settles O19: each command tests the read in progress first. -/
theorem staleReadsAreDiscarded : Obligations.StaleReadsAreDiscarded := by
  unfold Obligations.StaleReadsAreDiscarded
  intro s
  refine ⟨fun none data reason => ⟨?_, ?_⟩, fun r none reason => ?_, fun none data => ?_, fun none data => ?_,
    fun none i control => ?_⟩
  · simp [exec, execSetupReadDone, none]
  · simp [exec, execSetupReadError, State.readFails, State.readInProgress, none]
  · simp [exec, execFetchReadError, State.readFails, State.readInProgress, none]
  · simp [exec, execCaptureRecordRead, none]
  · simp [exec, execBufferEntryRead, none]
  · have unread (f : State → State) : Host.Outcome.next (s.takeRecord f) = (.next s : Host.Outcome State Fault Refusal) := by
      rw [takeRecord_none f s none]
    cases i <;> first | exact unread _ | exact absurd control (by simp [encodeControl])

/-! ## Interrupt registers -/

theorem signalling_without {c d m : Causes} (h : signalling (c.without d) m = true) : signalling c m = true := by
  simp only [signalling, Causes.without, Bool.or_eq_true, Bool.and_eq_true] at h ⊢
  tauto

/-- A message goes out where the condition becomes true while messages are enabled (R171). -/
theorem setCauses_issued (c m : Causes) (s : State) :
    (s.setCauses c m).link.issued = s.link.issued ++ messageSent s (s.setCauses c m) := by
  show (if s.link.msi && !s.signalling && Machine.signalling c m then s.link.issued ++ [.message] else s.link.issued) =
    s.link.issued ++ if s.link.msi = true ∧ s.signalling = false ∧ Machine.signalling c m = true then [.message] else []
  cases s.link.msi <;> cases s.signalling <;> cases Machine.signalling c m <;> simp

theorem setCauses_frame_mask (c m : Causes) (s : State) (same : c = s.cpl.cause) :
    unchangedBut [.mask, .line, .issued] s (s.setCauses c m) := (setCauses_frame c m s).drop same

/-- Clearing causes sends no message (R170, R171). -/
theorem setCauses_without_frame (d : Causes) (s : State) :
    unchangedBut [.cause, .line] s (s.setCauses (s.cpl.cause.without d) s.cpl.mask) := by
  have quiet : messageSent s (s.setCauses (s.cpl.cause.without d) s.cpl.mask) = [] :=
    if_neg fun ⟨_, before, after⟩ => absurd (before.symm.trans (signalling_without after)) (by decide)
  have issued := setCauses_issued (s.cpl.cause.without d) s.cpl.mask s
  rw [quiet, List.append_nil] at issued
  have frame := setCauses_frame (s.cpl.cause.without d) s.cpl.mask s
  intro p hp
  by_cases mask : p = .mask
  · subst mask
    rfl
  · by_cases sent : p = .issued
    · subst sent
      exact issued
    · exact frame p (by simp_all)

/-- Settles O10, register by register. -/
theorem interruptRegisters : Obligations.InterruptRegisters := by
  unfold Obligations.InterruptRegisters
  intro value enabled s
  refine ⟨⟨_, rfl, rfl, ?_, setCauses_lineFollows _ _ s, setCauses_without_frame _ s⟩,
    ⟨_, rfl, rfl, setCauses_issued _ _ s, setCauses_lineFollows _ _ s, setCauses_frame_mask _ _ s rfl⟩,
    ⟨_, rfl, rfl, rfl, ?_⟩⟩
  · exact (setCauses_without_frame (causesOf value) s).get .issued
  · intro p hp
    cases p <;> first | rfl | exact absurd (by decide) hp

/-- Settles O11: the expiry raises COMPLETION with the count begun anew. -/
theorem coalescingExpirySignals : Obligations.CoalescingExpirySignals := by
  unfold Obligations.CoalescingExpirySignals
  intro s
  refine ⟨_, rfl, fun due => ?_, fun due => if_neg (by rw [due]; decide)⟩
  rw [if_pos due]
  refine ⟨rfl, rfl, ?_, raise_issued _ _, raise_lineFollows _ _, .trans ?_ ((raise_frame _ _).widen _)⟩
  · rw [raise_cause]
    simp [Causes.or, Causes.onlyCompletion]
  · intro p hp
    cases p <;> first | rfl | exact absurd (by decide) hp

/-- Settles O12: SETUP_ADDR looks at the part state first. -/
theorem setupAddrWrites : Obligations.SetupAddrWrites := by
  unfold Obligations.SetupAddrWrites
  intro half value s
  refine ⟨_, rfl, fun disabled => ?_, fun other => if_neg other⟩
  rw [if_pos disabled]
  cases half
  · refine ⟨fun _ => ⟨rfl, rfl⟩, nofun, fun p hp => ?_⟩
    cases p <;> first | rfl | exact absurd (by decide) hp
  · refine ⟨nofun, fun _ => ⟨rfl, rfl⟩, fun p hp => ?_⟩
    cases p <;> first | rfl | exact absurd (by decide) hp

/-! ## Tail registers -/

/-- BAD_INDEX is set, with the line or the message that follows (R150, R168, R171). -/
theorem raise_badIndex (s : State) :
    (s.raise Causes.onlyBadIndex).cpl.cause = { s.cpl.cause with badIndex := true } ∧
      (s.raise Causes.onlyBadIndex).lineFollows ∧
      (s.raise Causes.onlyBadIndex).link.issued = s.link.issued ++ messageSent s (s.raise Causes.onlyBadIndex) ∧
      unchangedBut [.cause, .line, .issued] s (s.raise Causes.onlyBadIndex) :=
  ⟨by rw [raise_cause]; simp [Causes.or, Causes.onlyBadIndex], raise_lineFollows _ _, raise_issued _ _, raise_frame _ _⟩

theorem storeTail_ringTail (r : RingId) (value : Word) (s : State) :
    (s.storeTail r value).ringTail r = value ∧ ∀ q, q ≠ r → (s.storeTail r value).ringTail q = s.ringTail q := by
  refine ⟨by cases r <;> rfl, fun q hq => ?_⟩
  cases r <;> cases q <;> first | rfl | exact absurd rfl hq

theorem tailTest_frame (r : RingId) (s : State) :
    unchangedBut [.flushMark, .capCredit, .engine, .ctlRing, .capRing, .bufRing] s (s.tailTest r) := by
  cases r
  · exact (engineTest_frame s).widen _
  · exact ((moveMark_frame s).widen _).trans ((captureTest_frame _).widen _)
  · exact (bufferTest_frame s).widen _

theorem ringTail_of_unchanged {s t : State} {ps : List Part} (frame : unchangedBut ps s t) (q : RingId)
    (tails : ps.contains .tails = false := by decide) : t.ringTail q = s.ringTail q := by
  have same := frame.get .tails tails
  simp only [Part.same, Prod.mk.injEq] at same
  cases q
  · exact same.1
  · exact same.2.1
  · exact same.2.2

theorem maxRing_eq (r : RingId) : maxRing r = if r = .buffer then 4096 else 1024 := by cases r <;> rfl

/-- A tail that is taken is stored, and in RUNNING and DRAINING the block that reads the ring tests its conditions. -/
theorem exec_tailWrite_of_taken {r : RingId} {value : Word} {s : State} (h : TailTaken r value.toNat s) :
    exec (.tailWrite r value) s = .next (if s.link.part = .running ∨ s.link.part = .draining then
      (s.storeTail r value).tailTest r else s.storeTail r value) := by
  show execTailWrite r value s = _
  unfold execTailWrite
  unfold TailTaken at h
  rw [← maxRing_eq] at h
  cases hp : s.link.part <;> simp_all

theorem exec_tailWrite_of_not_taken {r : RingId} {value : Word} {s : State} (h : ¬ TailTaken r value.toNat s) :
    exec (.tailWrite r value) s = .next (s.raise Causes.onlyBadIndex) := by
  show execTailWrite r value s = _
  unfold execTailWrite
  unfold TailTaken at h
  rw [← maxRing_eq] at h
  cases hp : s.link.part <;> simp_all

/-- Settles O13, by whether the value is taken. -/
theorem tailWritesFollowTable61 : Obligations.TailWritesFollowTable61 := by
  unfold Obligations.TailWritesFollowTable61
  intro r value s
  by_cases taken : TailTaken r value.toNat s
  · refine ⟨_, exec_tailWrite_of_taken taken, fun _ => ?_, fun refused => absurd taken refused⟩
    obtain ⟨stored, others⟩ := storeTail_ringTail r value s
    have frame := storeTail_frame r value s
    split
    · rename_i tests
      have tested := tailTest_frame r (s.storeTail r value)
      refine ⟨(ringTail_of_unchanged tested r).trans stored, fun q hq => (ringTail_of_unchanged tested q).trans (others q hq),
        (frame.widen _).trans (tested.widen _), fun running draining => ?_⟩
      exact tests.elim (absurd · running) (absurd · draining)
    · exact ⟨stored, others, frame.widen _, fun _ _ => frame⟩
  · exact ⟨_, exec_tailWrite_of_not_taken taken, fun h => absurd h taken, fun _ => raise_badIndex s⟩

/-- In RUNNING a tail below the ring's size is stored and the block that reads the ring tests its conditions. -/
theorem exec_tailWrite_running {r : RingId} {value : Word} {s : State} (running : s.link.part = .running)
    (below : value.toNat < s.ringSize r) : exec (.tailWrite r value) s = .next ((s.storeTail r value).tailTest r) := by
  rw [exec_tailWrite_of_taken (.inr (.inr (.inr ⟨.inl running, below⟩))), if_pos (.inl running)]

theorem ringSize_of_setup {u : Setup} {s : State} (h : s.ring.setup = some u) :
    s.ringSize .control = u.control.size ∧ s.ringSize .capture = u.capture.size ∧ s.ringSize .buffer = u.buffer.size := by
  simp [State.ringSize, h]

theorem moveMark_none {s : State} (h : s.sched.flushMark = none) : s.moveMark = s := by
  unfold State.moveMark
  rw [h]

/-- Settles O14, ring by ring: the block that reads the ring tests its conditions with the tail stored. -/
theorem tailWriteStartsTheFetch : Obligations.TailWriteStartsTheFetch := by
  unfold Obligations.TailWriteStartsTheFetch
  intro u value s running setup
  obtain ⟨ctlSize, capSize, bufSize⟩ := ringSize_of_setup setup
  refine ⟨fun below waits => ?_, fun below waits room unmarked => ?_, fun below waits room free => ?_⟩
  · have waiting : (s.storeTail .control value).ringWaiting .control = true := decide_eq_true (Ne.symm waits)
    have read : (s.storeTail .control value).recordRead .control = some (readAt u s.ring.ctlHead s .control) :=
      recordRead_eq u .control _ setup
    refine ⟨_, exec_tailWrite_running running (by rw [ctlSize]; exact below),
      ((storeTail_frame .control value s).widen _).trans ((engineTest_frame _).widen _), fun idle => ?_,
      fun waitCredit held none => ?_⟩
    · have idle : (s.storeTail .control value).engine.mode = .idle := idle
      simp [State.tailTest, State.engineTest, waiting, idle, show (s.storeTail .control value).link.part = .running from running]
      rfl
    · have waitCredit : (s.storeTail .control value).engine.mode = .waitCredit := waitCredit
      have held : (s.storeTail .control value).engine.credit = .held := held
      have none : (s.storeTail .control value).ring.ctlRead = .none := none
      simp [State.tailTest, State.engineTest, waiting, waitCredit, held, none, read,
        show (s.storeTail .control value).link.part = .running from running]
      rfl
  · have unmoved : (s.storeTail .capture value).tailTest .capture = (s.storeTail .capture value).captureTest :=
      congrArg State.captureTest (moveMark_none unmarked)
    have frame := captureTest_frame (s.storeTail .capture value)
    obtain ⟨-, tested⟩ := captureTest_tested u (s.storeTail .capture value) setup
    rw [show (s.storeTail .capture value).captureTest.link.part = .running from (frame.get .partState).trans running,
      show (s.storeTail .capture value).captureTest.sched.queue = s.sched.queue from frame.get .queue,
      if_neg (by simp), if_pos ⟨.inl rfl, room, Ne.symm waits⟩] at tested
    obtain ⟨credit, read⟩ := tested
    refine ⟨_, exec_tailWrite_running running (by rw [capSize]; exact below), ?_, fun none => ?_, fun held none => ?_⟩
    · rw [unmoved]
      exact ((storeTail_frame .capture value s).widen _).trans (frame.widen _)
    · rw [unmoved, credit]
      exact if_pos none
    · have held : (s.storeTail .capture value).sched.credit = .held := held
      rw [held] at credit read
      rw [unmoved, credit, read]
      exact ⟨rfl, if_pos ⟨rfl, none⟩⟩
  · have waiting : (s.storeTail .buffer value).ringWaiting .buffer = true := decide_eq_true (Ne.symm waits)
    have read : (s.storeTail .buffer value).recordRead .buffer = some (readAt u s.ring.bufHead s .buffer) :=
      recordRead_eq u .buffer _ setup
    have cache : (s.storeTail .buffer value).bufs.cache.length < (s.storeTail .buffer value).cacheCapacity := by
      show s.bufs.cache.length < min 32 (s.ringSize .buffer - 1)
      rw [bufSize]
      exact room
    have frame := bufferTest_frame (s.storeTail .buffer value)
    have begun : (s.storeTail .buffer value).tailTest .buffer =
        { s.storeTail .buffer value with
          ring := { (s.storeTail .buffer value).ring with bufRead := (s.storeTail .buffer value).recordRead .buffer } } :=
      if_pos ⟨running, waiting, cache, free⟩
    refine ⟨_, exec_tailWrite_running running (by rw [bufSize]; exact below),
      ((storeTail_frame .buffer value s).widen _).trans (frame.widen _), ?_, ?_⟩
    · rw [begun]
      exact read
    · rw [begun]
      rfl

theorem forward_eq {size start finish : Nat} (h : start < size) : forward size start finish = ringDistance size start finish := by
  unfold forward ringDistance
  rw [Nat.mod_eq_of_lt h]

/-- The position behind a position of a ring is another one, but in a ring of one place. -/
theorem behind_eq_iff {size head : Nat} (h : head < size) : (head + 1) % size = head ↔ size = 1 := by
  constructor
  · intro same
    by_contra more
    obtain last | inner := Nat.lt_or_ge (head + 1) size
    · rw [Nat.mod_eq_of_lt last] at same
      omega
    · have last : head + 1 = size := by omega
      rw [last, Nat.mod_self] at same
      omega
  · rintro rfl
    omega

/-- The flush mark after a Capture Ring tail (R24). -/
theorem moveMark_flushMark {m : Nat} {s : State} (marked : s.sched.flushMark = some m) :
    s.moveMark.sched.flushMark =
      if ringDistance (s.ringSize .capture) s.ring.capHead s.ring.capTail.toNat <
          ringDistance (s.ringSize .capture) s.ring.capHead m then
        if (if s.ring.capTail.toNat = s.ring.capHead ∧ s.ring.capRead.isSome = true then
            (s.ring.capHead + 1) % s.ringSize .capture else s.ring.capTail.toNat) = s.ring.capHead then none
        else some (if s.ring.capTail.toNat = s.ring.capHead ∧ s.ring.capRead.isSome = true then
          (s.ring.capHead + 1) % s.ringSize .capture else s.ring.capTail.toNat)
      else some m := by
  unfold State.moveMark
  rw [marked]
  dsimp only
  split
  · rfl
  · exact marked

/-- Settles O15: the tail is stored, the mark moves, and the Capture Scheduler's test leaves it. -/
theorem tailWriteMovesTheFlushMark : Obligations.TailWriteMovesTheFlushMark := by
  unfold Obligations.TailWriteMovesTheFlushMark
  intro u value m s setup part below head _ _ marked
  obtain ⟨-, size, -⟩ := ringSize_of_setup setup
  have part : s.link.part = .running ∨ s.link.part = .draining := part
  refine ⟨_, exec_tailWrite_of_taken (.inr (.inr (.inr ⟨part, by rw [size]; exact below⟩))), ?_⟩
  rw [if_pos part]
  have size : (s.storeTail .capture value).ringSize .capture = u.capture.size := size
  have moved := moveMark_flushMark (s := s.storeTail .capture value) marked
  rw [size] at moved
  refine ((captureTest_frame _).get .flushMark).trans (moved.trans ?_)
  show (if ringDistance u.capture.size s.ring.capHead value.toNat < ringDistance u.capture.size s.ring.capHead m then
        if (if value.toNat = s.ring.capHead ∧ s.ring.capRead.isSome = true then
            (s.ring.capHead + 1) % u.capture.size else value.toNat) = s.ring.capHead then none
        else some (if value.toNat = s.ring.capHead ∧ s.ring.capRead.isSome = true then
          (s.ring.capHead + 1) % u.capture.size else value.toNat)
      else some m) = _
  rw [forward_eq head, forward_eq head]
  have behind := behind_eq_iff head
  by_cases atHead : value.toNat = s.ring.capHead <;> by_cases reading : s.ring.capRead.isSome = true <;>
    by_cases one : u.capture.size = 1 <;> simp_all

/-! ## CPL_HEAD -/

/-- A CPL_HEAD written in the run frees the slots that it passes. -/
theorem ringDistance_add {size head value tail : Nat} (hh : head < size) (hv : value < size) (ht : tail < size)
    (h : ringDistance size head value ≤ ringDistance size head tail) :
    ringDistance size value tail + ringDistance size head value = ringDistance size head tail := by
  rw [ringDistance_eq hh hv, ringDistance_eq hh ht] at h
  rw [ringDistance_eq hv ht, ringDistance_eq hh hv, ringDistance_eq hh ht]
  split_ifs at h ⊢ <;> omega

theorem exec_cplHeadWrite (value : Word) (s : State) : exec (.cplHeadWrite value) s =
    .next (if s.cplHeadInRange value.toNat = true then { s with cpl := { s.cpl with head := value } }
      else s.raise Causes.onlyBadIndex) := rfl

theorem cplHead_frame (value : Word) (s : State) :
    unchangedBut [.cplHead] s { s with cpl := { s.cpl with head := value } } := by
  intro p hp
  cases p <;> first | rfl | exact absurd (by decide) hp

/-- Settles O16, by whether the value lies in the run from CPL_HEAD to the tail. -/
theorem cplHeadWrites : Obligations.CplHeadWrites := by
  unfold Obligations.CplHeadWrites
  refine ⟨fun u value s setup head tail => ?_, fun value s setup => ?_⟩
  · have inRange : s.cplHeadInRange value.toNat = true ↔ value.toNat < u.completion.size ∧
        forward u.completion.size s.cpl.head.toNat value.toNat ≤ forward u.completion.size s.cpl.head.toNat s.cpl.tail := by
      unfold State.cplHeadInRange
      rw [setup, forward_eq head, forward_eq head]
      exact decide_eq_true_iff
    refine ⟨_, exec_cplHeadWrite value s, fun below run => ?_, fun outside => ?_⟩
    · rw [if_pos (inRange.mpr ⟨below, run⟩)]
      refine ⟨rfl, ?_, cplHead_frame value s⟩
      rw [forward_eq head, forward_eq head] at run
      have size : s.cplSize = u.completion.size := by simp [State.cplSize, setup]
      rw [forward_eq head]
      show ringDistance s.cplSize value.toNat s.cpl.tail + _ = ringDistance s.cplSize s.cpl.head.toNat s.cpl.tail
      rw [size]
      exact ringDistance_add head below tail run
    · rw [if_neg fun h => ?_]
      · exact raise_badIndex s
      · obtain ⟨below, run⟩ := inRange.mp h
        omega
  · have inRange : s.cplHeadInRange value.toNat = true ↔ value = 0 := by
      unfold State.cplHeadInRange
      rw [setup]
      exact decide_eq_true_iff.trans ⟨fun h => BitVec.eq_of_toNat_eq h, fun h => by rw [h]; rfl⟩
    refine ⟨_, exec_cplHeadWrite value s, fun zero => ?_, fun other => ?_⟩
    · rw [if_pos (inRange.mpr zero)]
      exact ⟨zero, cplHead_frame value s⟩
    · rw [if_neg (other ∘ inRange.mp)]
      exact raise_badIndex s

end Sys2Proof.Machine
end

section
/-! PROOFS of O5, O7, O8, O18 and O20: the resets, and entry to HALTED, STARTING and DISABLED. -/

set_option Elab.async false

namespace Sys2Proof.Machine

open Sys2Proof

/-! ## A slice write cut off (R107, R180) -/

/-- What may stand on the Host Link of a slice write cut off, and nothing else but a free value taken. -/
theorem cutOffWrite_eq (s : State) : ∃ w n, CutOff s w ∧
    s.cutOffWrite = { s with free := n, link := { s.link with issued := s.link.issued ++ w } } := by
  have none (n : Nat) : { s with free := n } =
      { s with free := n, link := { s.link with issued := s.link.issued ++ [] } } := by rw [List.append_nil]
  unfold State.cutOffWrite
  cases slices : s.store.slices with
  | nil => exact ⟨[], s.free, .inl rfl, none s.free⟩
  | cons sl rest =>
    dsimp only
    cases buffer : s.sliceBuffer sl with
    | none =>
      refine ⟨[], s.free + 1, .inl rfl, ?_⟩
      rw [show (State.ctx { s with free := s.free + 1 } sl.ctx).bind
        (fun f => (f.assignments[sl.position]?).bind Assignment.buffer) = .none from buffer]
      exact none _
    | some b =>
      rw [show (State.ctx { s with free := s.free + 1 } sl.ctx).bind
        (fun f => (f.assignments[sl.position]?).bind Assignment.buffer) = some b from buffer]
      dsimp only
      split
      · exact ⟨[], s.free + 1, .inl rfl, none _⟩
      · rename_i some
        exact ⟨_, s.free + 1, .inr ⟨sl, rest, b, _, slices, buffer, Nat.pos_of_ne_zero some, Nat.mod_lt _, rfl⟩, rfl⟩

/-- Settles O5: every reset builds the power-on state anew. -/
theorem resetsLeavePowerOnValues : Obligations.ResetsLeavePowerOnValues := by
  unfold Obligations.ResetsLeavePowerOnValues
  intro s pin enable
  obtain ⟨w, n, cut, issued⟩ := cutOffWrite_eq s
  refine ⟨⟨_, w, rfl, rfl, cut, ?_⟩, ⟨_, w, rfl, cut, ?_⟩⟩ <;>
    (unfold State.partReset; dsimp only; rw [issued]; rfl)

/-! ## HALTED (R178) -/

theorem afterHalt_eq (x : Transaction) : x.afterHalt = if x.owner = .engine then { x with owner := .cleared } else x := by
  unfold Transaction.afterHalt
  split
  · rename_i engine
    exact (if_pos engine).symm
  · rename_i other
    exact (if_neg other).symm

theorem enterHalted_halted (cause : HaltCause) (d : Detail) (s : State) : Halted cause d s (s.enterHalted cause d) := by
  have frame := enterHalted_frame cause d s
  have sensor := enterHalted_sensor cause d s
  rw [show Transaction.afterHalt = fun x => if x.owner = .engine then { x with owner := .cleared } else x from
    funext afterHalt_eq] at sensor
  obtain ⟨w, n, cut, issued⟩ := cutOffWrite_eq s
  revert frame sensor
  unfold State.enterHalted
  rw [issued]
  intro frame sensor
  refine ⟨rfl, rfl, rfl, ?_, rfl, rfl, rfl, rfl, rfl, rfl, rfl, rfl, rfl, sensor, rfl, rfl, rfl, ⟨w, cut, ?_⟩, frame⟩
  · rw [raise_cause]
    simp [Causes.or, Causes.onlyHalt]
  · rw [raise_issued]
    exact List.append_assoc _ _ _

theorem readFails_of_some {r : HostRead} {s : State} (h : (s.readInProgress r).isSome = true) :
    s.readFails r = s.enterHalted (haltOf r).1 (haltOf r).2 := if_pos h

theorem readInProgress_of_due {r : HostRead} {s : State} (h : s.readDue r = true) : (s.readInProgress r).isSome = true := by
  unfold State.readDue isDue at h
  cases read : s.readInProgress r with
  | none => simp [read] at h
  | some _ => rfl

/-- Settles O18: every host read error and every failed check of the Setup Block is an entry to HALTED
(`enterHalted_halted`). -/
theorem hostReadFaultsHalt : Obligations.HostReadFaultsHalt := by
  unfold Obligations.HostReadFaultsHalt
  refine ⟨fun reason s read => ⟨_, rfl, ?_⟩, fun r reason s read => ⟨_, rfl, ?_⟩,
    fun read s => ⟨fun due => ?_, fun due => ⟨_, rfl, ?_⟩⟩, fun data d s read failed => ?_⟩
  · rw [readFails_of_some (r := .setup) read]
    exact enterHalted_halted _ _ _
  · rw [readFails_of_some (r := .ring r) read]
    cases r <;> exact enterHalted_halted _ _ _
  · exact congrArg Host.Outcome.next (if_neg (by rw [show s.readDue read = false from due]; decide))
  · rw [if_pos (show s.readDue read = true from due), readFails_of_some (readInProgress_of_due due)]
    refine ⟨?_, ?_, ?_, ?_⟩ <;> (rintro rfl; exact enterHalted_halted _ _ _)
  · obtain ⟨r, hr⟩ := Option.isSome_iff_exists.mp read
    refine ⟨s.enterHalted .setupInvalid d, ?_, enterHalted_halted _ _ _⟩
    rw [← setupCheck_eq] at failed
    simp [exec, execSetupReadDone, hr, failed]

/-! ## STARTING (R158, R174) -/

theorem leaveFlush_eq (flush : Option Flush) (x : Transaction) : x.leaveFlush flush =
    match x.owner, flush with
    | .flush, some f => { x with owner := .leftFlush f.generation }
    | _, _ => x := by
  unfold Transaction.leaveFlush
  cases x.owner <;> cases flush <;> rfl

theorem afterHalt_leaveFlush (flush : Option Flush) (x : Transaction) : (x.leaveFlush flush).afterHalt =
    match x.owner, flush with
    | .flush, some f => { x with owner := .leftFlush f.generation }
    | .engine, _ => { x with owner := .cleared }
    | _, _ => x := by
  unfold Transaction.leaveFlush Transaction.afterHalt
  cases h : x.owner <;> cases flush <;> simp [h]

/-- Raising causes never ends the signalling condition. -/
theorem signalling_or {c d m : Causes} (h : signalling c m = true) : signalling (c.or d) m = true := by
  simp only [signalling, Causes.or, Bool.or_eq_true, Bool.and_eq_true] at h ⊢
  tauto

/-- Two raises one after the other send the message of their sum. -/
theorem messageSent_raise {s t v : State} (msi : t.link.msi = s.link.msi)
    (first : s.signalling = true → t.signalling = true) (second : t.signalling = true → v.signalling = true) :
    messageSent s t ++ messageSent t v = messageSent s v := by
  unfold messageSent
  rw [msi]
  cases s.link.msi <;> cases hs : s.signalling <;> cases ht : t.signalling <;> cases hv : v.signalling <;> simp_all

/-- The unsignalled count is signalled at entry to STARTING (R158). -/
def State.countSignalled (s : State) : State := if s.cpl.unsignalled ≠ 0 then s.raise Causes.onlyCompletion else s

/-- The state after entry to STARTING, before the address of the Setup Block is looked at. -/
def State.startedAll (s : State) : State :=
  { s with
    link := { s.link with part := .starting, haltCause := .none, haltDetail := .none }
    ring :=
      { s.ring with
        ctlHead := 0, capHead := 0, bufHead := 0, setup := none, setupRead := none, ctlRead := none, capRead := none,
        bufRead := none }
    engine := State.reset.engine
    sched := State.reset.sched
    seq := { State.reset.seq with trigger := s.seq.trigger, pin := s.seq.pin, hold := s.seq.hold }
    recv := { s.recv with state := .idle, served := none, timer := none, stray := 0 }
    cutter := { s.cutter with inHand := [] }
    store := { slices := [] }
    bufs := { cache := [] }
    sensor := s.startedSensor
    cpl := { s.cpl with tail := 0, phase := true, head := 0, unsignalled := 0, timer := none } }

theorem enterStarting_eq (s : State) : s.enterStarting =
    if s.link.setupLo.toNat % 64 = 0 then
      { s.countSignalled.startedAll with
        ring := { s.countSignalled.startedAll.ring with setupRead := s.hostRead s.setupAddr 64 } }
    else s.countSignalled.startedAll.enterHalted .setupInvalid .setupAddress := by
  unfold State.enterStarting
  by_cases raised : s.cpl.unsignalled ≠ 0
  · unfold State.countSignalled
    simp only [if_pos raised]
    rfl
  · unfold State.countSignalled
    simp only [if_neg raised]
    rfl

theorem countSignalled_cause (s : State) : s.countSignalled.cpl.cause =
    { s.cpl.cause with completion := s.cpl.cause.completion || decide (s.cpl.unsignalled ≠ 0) } := by
  unfold State.countSignalled
  split
  · rename_i some
    rw [raise_cause]
    simp [Causes.or, Causes.onlyCompletion, some]
  · rename_i none
    simp [Decidable.not_not.mp none]

theorem countSignalled_issued (s : State) :
    s.countSignalled.link.issued = s.link.issued ++ messageSent s s.countSignalled := by
  unfold State.countSignalled
  split
  · exact raise_issued _ _
  · simp [messageSent]

/-- The signalling of the unsignalled count touches the causes, the line and what is issued alone (R158, R171). -/
theorem countSignalled_eq (s : State) : ∃ cause line issued, s.countSignalled =
    { s with
      cpl := { s.cpl with cause := cause }
      link := { s.link with line := line, issued := issued } } := by
  unfold State.countSignalled
  split <;> exact ⟨_, _, _, rfl⟩

theorem countSignalled_signalling {s : State} (h : s.signalling = true) : s.countSignalled.signalling = true := by
  unfold State.countSignalled
  split
  · exact signalling_or h
  · exact h

/-- The port, with the owners of a flush and of a record changed, after entry to STARTING that halts at once. -/
theorem startedSensor_port_afterHalt (s : State) :
    s.startedSensor.port.map Transaction.afterHalt = s.sensor.port.map fun x => match x.owner, s.sensor.flush with
      | .flush, some f => { x with owner := .leftFlush f.generation }
      | .engine, _ => { x with owner := .cleared }
      | _, _ => x :=
  (Option.map_map ..).trans (congrArg (fun g => s.sensor.port.map g) (funext (afterHalt_leaveFlush _)))

theorem startedSensor_eq (s : State) : s.startedSensor =
    { s.sensor with
      flush := none
      port := s.sensor.port.map fun x => match x.owner, s.sensor.flush with
        | .flush, some f => { x with owner := .leftFlush f.generation }
        | _, _ => x } := by
  unfold State.startedSensor
  rw [show Transaction.leaveFlush s.sensor.flush = _ from funext (leaveFlush_eq _)]

/-- With nothing in the store a halt cuts no write off (R107). -/
theorem cutOffWrite_empty {s : State} (h : s.store.slices = []) : s.cutOffWrite = s := by
  unfold State.cutOffWrite
  rw [h]

theorem enterStarting_started (s : State) : Started s s.enterStarting := by
  have issued := countSignalled_issued s
  have cause := countSignalled_cause s
  have twice : messageSent s s.countSignalled ++
      messageSent s.countSignalled (s.countSignalled.raise Causes.onlyHalt) =
        messageSent s (s.countSignalled.raise Causes.onlyHalt) :=
    messageSent_raise (by unfold State.countSignalled; split <;> rfl) countSignalled_signalling signalling_or
  rw [enterStarting_eq]
  obtain ⟨c, line, sent, counted⟩ := countSignalled_eq s
  rw [counted] at issued cause twice ⊢
  replace cause : c = { s.cpl.cause with completion := s.cpl.cause.completion || decide (s.cpl.unsignalled ≠ 0) } := cause
  subst cause
  unfold Started
  split
  · rename_i even
    refine ⟨⟨rfl, rfl, rfl, rfl, rfl, rfl, rfl⟩, ⟨rfl, rfl, rfl, rfl, rfl⟩, rfl, rfl, rfl, rfl, rfl, rfl, rfl, issued, rfl, rfl,
      ?_, rfl, rfl, rfl, rfl, rfl, rfl, startedSensor_eq s⟩
    intro p hp
    cases p <;> first | rfl | exact absurd (by decide) hp
  · rename_i odd
    unfold State.enterHalted
    rw [cutOffWrite_empty rfl]
    refine ⟨⟨rfl, rfl, rfl, rfl, rfl, rfl, rfl⟩, ⟨rfl, rfl, rfl, rfl, rfl⟩, rfl, rfl, rfl, rfl, rfl, rfl, rfl, ?_, ?_, ?_,
      ?_, rfl, rfl, rfl, ?_, rfl, rfl, ?_⟩
    · refine (raise_issued _ _).trans ((congrArg (· ++ _) issued).trans ((List.append_assoc _ _ _).trans ?_))
      exact congrArg (s.link.issued ++ ·) twice
    · exact Bool.or_false _
    · exact Bool.or_false _
    · intro p hp
      cases p <;> first | rfl | exact absurd (by decide) hp
    · exact Bool.or_true _
    · exact congrArg (fun port => { s.sensor with flush := none, staged := [], engineWaits := false, port := port })
        (startedSensor_port_afterHalt s)

/-- Settles O7: Enable is stored, and a DISABLED part starts (`enterStarting_started`). -/
theorem enableSetStarts : Obligations.EnableSetStarts := by
  unfold Obligations.EnableSetStarts
  intro s
  have stored : unchangedBut [.enable] s { s with link := { s.link with enable := true } } := by
    intro p hp
    cases p <;> first | rfl | exact absurd (by decide) hp
  refine ⟨_, rfl, ?_, fun disabled => ?_, fun other => ?_⟩
  · split
    · exact (enterStarting_frame _).get .enable
    · rfl
  · rw [if_pos (show ({ s with link := { s.link with enable := true } } : State).link.part = .disabled from disabled)]
    exact enterStarting_started _
  · rw [if_neg (show ¬ ({ s with link := { s.link with enable := true } } : State).link.part = .disabled from other)]
    exact stored

theorem drainOn_part (s : State) : s.drainOn.link.part = s.link.part :=
  calc s.drainOn.link.part = (s.stopAllRequests .abort).discardWaiting.engineDrain.captureTest.link.part :=
        (follow_frame _).get .partState
    _ = (s.stopAllRequests .abort).discardWaiting.engineDrain.link.part := (captureTest_frame _).get .partState
    _ = (s.stopAllRequests .abort).discardWaiting.link.part := (engineDrain_frame _).get .partState
    _ = (s.stopAllRequests .abort).link.part := (discardWaiting_frame _).get .partState
    _ = s.link.part := (stopAllRequests_frame .abort s).get .partState

/-- What a write of Enable 0 does, part state by part state (R173, R176, R179). -/
theorem exec_enableClear (s : State) : exec .enableClear s = .next
    (match s.link.part with
      | .running => State.enterDraining { s with link := { s.link with enable := false } }
      | .halted => State.enterDisabled { s with link := { s.link with enable := false } }
      | _ => { s with link := { s.link with enable := false } }) := by
  show execEnableClear s = _
  unfold execEnableClear
  dsimp only
  cases s.link.part <;> rfl

/-- Settles O8, by the part state. -/
theorem enableClearLeavesHaltedOrDrains : Obligations.EnableClearLeavesHaltedOrDrains := by
  unfold Obligations.EnableClearLeavesHaltedOrDrains
  intro s
  have stored : unchangedBut [.enable] s { s with link := { s.link with enable := false } } := by
    intro p hp
    cases p <;> first | rfl | exact absurd (by decide) hp
  refine ⟨_, exec_enableClear s, ?_⟩
  cases part : s.link.part
  case running =>
    refine ⟨(enterDraining_frame _).get .enable, by simp, by simp, fun _ => ?_⟩
    dsimp only
    rw [enterDraining_eq, drainOn_part]
  case halted =>
    exact ⟨rfl, by simp, fun _ => ⟨rfl, rfl, rfl, rfl, (stored.widen _).trans ((enterDisabled_frame _).widen _)⟩, by simp⟩
  all_goals exact ⟨rfl, fun _ => stored, by simp, by simp⟩

/-- Entry to STARTING from states that differ in what it sets anyway. -/
theorem Started.of_same {s t v : State} (h : Started t v) (frame : unchangedBut startedParts s t)
    (link : t.link = { s.link with part := t.link.part })
    (seq : t.seq = { s.seq with latch := t.seq.latch, missed := t.seq.missed }) (recv : t.recv = s.recv)
    (cutter : t.cutter = s.cutter) (sensor : t.sensor = s.sensor) (cpl : t.cpl = s.cpl) (now : t.now = s.now) :
    Started s v := by
  obtain ⟨rings, slots, engine, sched, hseq, hrecv, inHand, store, cache, issued, completion, badIndex, kept, rest⟩ := h
  unfold messageSent State.signalling at issued
  unfold readFrom at rest
  rw [link, cpl] at issued
  rw [cpl] at completion badIndex
  rw [recv] at hrecv
  rw [seq] at hseq
  rw [link, cpl, cutter, sensor, now] at rest
  exact ⟨rings, slots, engine, sched, hseq, hrecv, inHand, store, cache, issued, completion, badIndex, frame.trans kept, rest⟩

/-- Settles O20: at the end of a drain the part is DISABLED by Table 49 (`drainLeft_eq`), and starts where Enable reads 1
(`enterStarting_started`). -/
theorem drainFinishes : Obligations.DrainFinishes := by
  unfold Obligations.DrainFinishes
  intro s
  by_cases drained : s.drained = true
  · have frame := drainLeft_frame drained
    have left := drainLeft_eq drained
    have finishes : exec .drainFinish s = .next (if s.link.enable = true then s.drainLeft.enterStarting else s.drainLeft) := by
      show execDrainFinish s = _
      unfold execDrainFinish
      rw [if_pos drained]
      show Host.Outcome.next (if s.drainLeft.link.enable = true then s.drainLeft.enterStarting else s.drainLeft) = _
      rw [show s.drainLeft.link.enable = s.link.enable from frame.get .enable]
    refine ⟨_, finishes, fun h => absurd ((drained_iff s).mp drained) h, fun _ => ?_⟩
    cases enable : s.link.enable
    · rw [if_neg Bool.false_ne_true]
      refine ⟨?_, ?_, ?_, (frame.get .enable).trans enable, fun _ => ⟨?_, ?_, ?_, ?_, frame⟩, nofun⟩ <;> rw [left]
    · rw [if_pos rfl]
      have starting := enterStarting_frame s.drainLeft
      have tails := starting.get .tails
      simp only [Part.same, Prod.mk.injEq] at tails
      obtain ⟨ctl, cap, buf⟩ := tails
      refine ⟨ctl.trans ?_, cap.trans ?_, buf.trans ?_, ((starting.get .enable).trans (frame.get .enable)).trans enable,
        nofun, fun _ => (enterStarting_started s.drainLeft).of_same ?_ ?_ ?_ ?_ ?_ ?_ ?_ ?_⟩
      all_goals rw [left]
      intro p hp
      cases p <;> first | rfl | exact absurd (by decide) hp
  · exact ⟨s, congrArg Host.Outcome.next (if_neg drained), fun _ => rfl, fun h => absurd ((drained_iff s).mpr h) drained⟩

end Sys2Proof.Machine
end

section
/-! PROOFS of O3, O4 and O6: control records read back, the writes of the register window, and its reads. -/

set_option Elab.async false

namespace Sys2Proof.Machine

open Sys2Proof

/-! ## Fields of a record (R182) -/

/-- A field behind the first bytes is one of the bytes behind them. -/
theorem field_behind (n v : Nat) (c : List Byte) (off size : Nat) (h : n ≤ off) :
    field (leBytes n v ++ c) off size = field c (off - n) size := by
  unfold field
  rw [List.drop_append, List.drop_of_length_le (by simpa using h), leBytes_length, List.nil_append]

/-- The field that stands first is read back. -/
theorem field_first (n v : Nat) (c : List Byte) (h : v < 256 ^ n) : field (leBytes n v ++ c) 0 n = v :=
  field_leBytes [] c 0 n v rfl h

@[simp] theorem field_first_half (x : Half) (c : List Byte) : field (leBytes 2 x.toNat ++ c) 0 2 = x.toNat :=
  field_first 2 _ c x.isLt

@[simp] theorem field_first_word (x : Word) (c : List Byte) : field (leBytes 4 x.toNat ++ c) 0 4 = x.toNat :=
  field_first 4 _ c x.isLt

@[simp] theorem field_first_byte (x : Byte) (c : List Byte) : field (leBytes 1 x.toNat ++ c) 0 1 = x.toNat :=
  field_first 1 _ c x.isLt

theorem flagByte_lt (l : List Bool) : flagByte l < 2 ^ l.length := by
  induction l with
  | nil => exact Nat.one_pos
  | cons b l ih =>
    unfold flagByte
    rw [List.length_cons, Nat.pow_succ]
    have := b.toNat_lt
    omega

theorem flagByte_testBit_zero (b : Bool) (l : List Bool) : (flagByte (b :: l)).testBit 0 = b := by
  unfold flagByte
  cases b <;> simp [Nat.testBit_zero, Nat.add_mod]

theorem flagByte_testBit_one (a b : Bool) (l : List Bool) : (flagByte (a :: b :: l)).testBit 1 = b := by
  rw [Nat.testBit_succ]
  have half : flagByte (a :: b :: l) / 2 = flagByte (b :: l) := by
    show (a.toNat + 2 * flagByte (b :: l)) / 2 = _
    have := a.toNat_lt
    omega
  rw [half, flagByte_testBit_zero]

/-- A record's fields lie between its head of eight bytes and the zeros that fill it (Table 76). -/
theorem recordOf_eq (kind : Byte) (tag : Word) (fields : List Byte) : recordOf kind tag fields =
    leBytes 1 kind.toNat ++ (leBytes 3 0 ++ (leBytes 4 tag.toNat ++ (fields ++ List.replicate (56 - fields.length) 0))) := by
  unfold recordOf padTo
  simp only [List.append_assoc, List.length_append, leBytes_length]
  rw [show 64 - (1 + (3 + (4 + fields.length))) = 56 - fields.length by omega]

@[simp] theorem recordOf_kind (kind : Byte) (tag : Word) (fields : List Byte) :
    field (recordOf kind tag fields) 0 1 = kind.toNat := by
  rw [recordOf_eq, field_first_byte]

@[simp] theorem recordOf_tag (kind : Byte) (tag : Word) (fields : List Byte) :
    recordTag (recordOf kind tag fields) = tag := by
  unfold recordTag
  rw [recordOf_eq, field_behind 1 _ _ 4 4 (by decide), field_behind 3 _ _ 3 4 (by decide), field_first_word,
    BitVec.ofNat_toNat, BitVec.setWidth_eq]

theorem recordOf_field (kind : Byte) (tag : Word) (fields : List Byte) (off size : Nat) (h : 8 ≤ off) :
    field (recordOf kind tag fields) off size = field (fields ++ List.replicate (56 - fields.length) 0) (off - 8) size := by
  rw [recordOf_eq, field_behind 1 _ _ _ _ (by omega), field_behind 3 _ _ _ _ (by omega),
    field_behind 4 _ _ _ _ (by omega), show off - 1 - 3 - 4 = off - 8 by omega]

theorem field_first_flags (l : List Bool) (c : List Byte) (h : l.length ≤ 8) :
    field (leBytes 1 (flagByte l) ++ c) 0 1 = flagByte l :=
  field_first 1 _ c (Nat.lt_of_lt_of_le (flagByte_lt l) (Nat.pow_le_pow_right (by decide) h))

/-- The fields of a segment order are its values. -/
theorem recordOf_values (kind : Byte) (tag : Word) (values : List Byte) (h : values.length = 16) :
    ((recordOf kind tag values).drop 8).take 16 = values := by
  have head : (leBytes 1 kind.toNat ++ (leBytes 3 0 ++ leBytes 4 tag.toNat)).length = 8 := by simp
  rw [recordOf_eq, ← List.append_assoc (leBytes 3 0), ← List.append_assoc (leBytes 1 kind.toNat), List.drop_left' head,
    List.take_left' h]

/-- The kinds of Table 76 are all there are: a record of another kind reads as a bad record (R135). -/
theorem decodeControl_other {data : List Byte} (h : isControlKind (BitVec.ofNat 8 (field data 0 1)) = false) :
    decodeControl data = .badRecord (BitVec.ofNat 8 (field data 0 1)) (recordTag data) := by
  unfold decodeControl
  dsimp only
  generalize field data 0 1 = k at h ⊢
  split <;> first | rfl | exact absurd h (by decide)

/-- A power action that is none reads as a bad field (R135). -/
theorem decodeControl_badAction {data : List Byte} (kind : field data 0 1 = 7)
    (h : isPowerAction (BitVec.ofNat 8 (field data 8 1)) = false) :
    decodeControl data = .sensorPowerBadField (recordTag data) (BitVec.ofNat 8 (field data 8 1)) := by
  unfold decodeControl
  rw [kind]
  show (match field data 8 1 with
    | 1 => Instr.sensorPowerOff (recordTag data) (fieldBit data 9 0)
    | 2 => .sensorPowerOn (recordTag data) (fieldBit data 9 0)
    | 3 => .sensorPowerCycle (recordTag data) (fieldBit data 9 0)
    | action => .sensorPowerBadField (recordTag data) (BitVec.ofNat 8 action)) = _
  generalize field data 8 1 = k at h ⊢
  split <;> first | rfl | exact absurd h (by decide)

theorem decodeControl_encodeControl {i : Instr} (wf : i.WellFormed = true) {data : List Byte}
    (h : encodeControl i = some data) : decodeControl data = i := by
  cases i <;> cases h
  case mark => simp [decodeControl, kindMark]
  case badRecord =>
    rw [decodeControl_other] <;> simp_all [Instr.WellFormed]
  case windowSet tag number w =>
    obtain ⟨x, y, width, height, skipX, skipY, mosaic, format⟩ := w
    cases format <;>
      simp [decodeControl, kindWindowSet, recordHalf, recordWindow, fieldBit, recordOf_field, field_behind,
        field_first_flags, -Nat.testBit_zero, flagByte_testBit_zero, flagByte_testBit_one]
  case windowClear => simp [decodeControl, kindWindowClear, recordHalf, recordOf_field]
  case orderSet tag values =>
    simp only [decodeControl, recordOf_kind, recordOf_tag, kindOrderSet]
    rw [recordOf_values _ _ _ (by simpa [Instr.WellFormed] using wf)]
    rfl
  case sensorWriteNow =>
    simp [decodeControl, kindSensorWrite, recordHalf, fieldBit, recordOf_field, field_behind, field_first]
  case sensorWriteStaged =>
    simp [decodeControl, kindSensorWrite, recordHalf, fieldBit, recordOf_field, field_behind, field_first]
  case sensorRead => simp [decodeControl, kindSensorRead, recordHalf, recordOf_field]
  case sensorPowerOff tag replay =>
    cases replay <;> simp [decodeControl, kindSensorPower, fieldBit, recordOf_field, field_behind, field_first]
  case sensorPowerOn tag replay =>
    cases replay <;> simp [decodeControl, kindSensorPower, fieldBit, recordOf_field, field_behind, field_first]
  case sensorPowerCycle tag replay =>
    cases replay <;> simp [decodeControl, kindSensorPower, fieldBit, recordOf_field, field_behind, field_first]
  case sensorPowerBadField tag action =>
    have code : field (recordOf kindSensorPower tag (leBytes 1 action.toNat)) 8 1 = action.toNat := by simp [recordOf_field]
    rw [decodeControl_badAction (recordOf_kind _ _ _), code, recordOf_tag, BitVec.ofNat_toNat, BitVec.setWidth_eq]
    simpa [code, Instr.WellFormed] using wf
  case flushStaged => simp [decodeControl, kindFlushStaged]
  case discardStaged => simp [decodeControl, kindDiscardStaged]
  case stopTag tag request mode =>
    cases mode <;>
      simp [decodeControl, kindStop, recordMode, stopByte, fieldBit, recordOf_field, field_behind, field_first_flags,
        -Nat.testBit_zero, flagByte_testBit_zero, flagByte_testBit_one]
  case stopAll tag request mode =>
    cases mode <;>
      simp [decodeControl, kindStop, recordMode, stopByte, fieldBit, recordOf_field, field_behind, field_first_flags,
        -Nat.testBit_zero, flagByte_testBit_zero, flagByte_testBit_one]

/-- What a well-formed control command is written as has 64 bytes, command by command (`RecordLength`). -/
theorem encodeControl_length {i : Instr} (wf : i.WellFormed = true) {data : List Byte} (h : encodeControl i = some data) :
    data.length = 64 := by
  have fit (fields : List Byte) (kind : Byte) (tag : Word) (short : fields.length ≤ 56) :
      (recordOf kind tag fields).length = 64 := Laws.recordOf_length kind tag fields short
  cases i <;> cases h
  case orderSet values => exact fit _ _ _ (by have : values.length = 16 := by simpa [Instr.WellFormed] using wf
                                              omega)
  all_goals exact fit _ _ _ (by simp)

/-- Settles O3. -/
theorem controlRecordsReadBack : Obligations.ControlRecordsReadBack := by
  unfold Obligations.ControlRecordsReadBack
  exact fun i data wf h => ⟨encodeControl_length wf h, decodeControl_encodeControl wf h⟩

/-! ## The register window (R184) -/

/-- The offsets that take a write of four bytes (Table 83). -/
theorem isWritableOffset_iff (offset : BitVec 12) : isWritableOffset offset = true ↔
    offset.toNat ∈ [0x04, 0x0C, 0x10, 0x14, 0x18, 0x1C, 0x20, 0x24, 0x28] := by
  unfold isWritableOffset
  simp only [decide_eq_true_eq, List.mem_cons, List.not_mem_nil, or_false]
  omega

theorem decodeRegisterWrite_other {offset : BitVec 12} {width : Nat} (value : Word) (pin : Level)
    (h : ¬ (width = 4 ∧ isWritableOffset offset = true)) :
    decodeRegisterWrite offset width value pin = .registerWriteOther offset width value := by
  unfold decodeRegisterWrite
  split
  · rename_i four
    have other := fun mem => h ⟨four, (isWritableOffset_iff offset).mpr mem⟩
    generalize offset.toNat = n at other ⊢
    split <;> first | rfl | exact absurd (by decide) other
  · rfl

theorem decodeRegisterWrite_wellFormed (offset : BitVec 12) (width : Nat) (value : Word) (pin : Level) :
    (decodeRegisterWrite offset width value pin).WellFormed = true := by
  by_cases h : width = 4 ∧ isWritableOffset offset = true
  · obtain ⟨rfl, writable⟩ := h
    have mem := (isWritableOffset_iff offset).mp writable
    simp only [List.mem_cons, List.not_mem_nil, or_false] at mem
    unfold decodeRegisterWrite
    rcases mem with h | h | h | h | h | h | h | h | h <;> rw [if_pos rfl, h]
    · show Instr.WellFormed (if value.getLsbD 1 then .partReset (value.getLsbD 0) pin
        else if value.getLsbD 0 then .enableSet else .enableClear) = true
      split
      · rfl
      · split <;> rfl
    all_goals rfl
  · rw [decodeRegisterWrite_other value pin h]
    unfold Instr.WellFormed
    simpa [imp_iff_not_or] using h

/-- Settles O4, offset by offset. -/
theorem registerWindowWrites : Obligations.RegisterWindowWrites := by
  unfold Obligations.RegisterWindowWrites
  exact ⟨fun offset width value pin =>
      ⟨decodeRegisterWrite_wellFormed offset width value pin, decodeRegisterWrite_other value pin⟩,
    fun value pin => ⟨rfl, rfl, rfl, rfl, rfl, rfl, rfl, rfl, rfl⟩, fun offset width value s => rfl⟩

theorem register_other {s : State} {offset : Nat}
    (h : offset ∉ [0x00, 0x04, 0x08, 0x0C, 0x10, 0x14, 0x18, 0x1C, 0x20, 0x24, 0x28]) : s.register offset = 0 := by
  unfold State.register
  split <;> first | rfl | exact absurd (by decide) h

/-- A read of one byte returns the addressed byte of the register (R184). -/
theorem registerByte_toNat (s : State) (offset : Nat) :
    (s.registerByte offset).toNat = (s.register (4 * (offset / 4))).toNat / 256 ^ (offset % 4) % 256 := by
  have below : offset % 4 < 4 := Nat.mod_lt _ (by decide)
  unfold State.registerByte
  rw [leBytes_eq, List.getD_eq_getElem _ _ (by simpa using below)]
  simp

theorem causes_word (c : Causes) : c.word =
    BitVec.ofNat 32 ((if c.completion then 1 else 0) + (if c.halt then 2 else 0) + (if c.badIndex then 4 else 0)) := by
  unfold Causes.word flagByte flagByte flagByte
  cases c.completion <;> cases c.halt <;> cases c.badIndex <;> rfl

theorem register_status (s : State) : s.register 0x08 = BitVec.ofNat 32
    ((match s.link.part with
        | .disabled => 0 | .starting => 1 | .running => 2 | .draining => 3 | .halted => 4) +
      16 * (match s.sensor.power with
        | .off => 0 | .settling => 1 | .replaying => 2 | .ready => 3) +
      256 * (match s.link.haltCause with
        | .none => 0 | .setupRead => 1 | .setupInvalid => 2 | .fetchRead => 3) +
      65536 * s.link.haltDetail.code) := by
  show s.status = _
  unfold State.status PartState.code PowerState.code HaltCause.code
  cases s.link.part <;> cases s.sensor.power <;> cases s.link.haltCause <;> rfl

/-- The invariants of O55 to O60 at reset. -/
theorem reset_safe :
    State.reset.listsBounded ∧ State.reset.tablesForm ∧ State.reset.sensorForm ∧ State.reset.lineFollows ∧
      State.reset.filterForm ∧ State.reset.powerForm ∧ State.reset.replayForm ∧ State.reset.flushApart ∧
      State.reset.flushForm ∧ State.reset.framesApart ∧ State.reset.stopForm ∧ State.reset.refsCounted ∧
      State.reset.restForm ∧ State.reset.creditForm := by
  refine ⟨by unfold State.listsBounded; decide, by unfold State.tablesForm; decide, ?_, rfl, by unfold State.filterForm; decide,
    powerForm_idle rfl (by decide) rfl (replayHoldsPort_none rfl), replayForm_none rfl rfl rfl (replayHoldsPort_none rfl),
    ?_, ?_, ?_, ?_, ?_, ?_, ?_⟩
  · exact ⟨rfl, by decide, portForm_none, jobForm_none⟩
  · exact ⟨nofun, nofun, nofun⟩
  · exact ⟨by decide, nofun, nofun⟩
  · exact framesApart_of_free (fun c => by cases c <;> rfl) rfl rfl rfl rfl
  · exact fun h => absurd rfl h
  · exact ⟨rfl, by decide, nofun⟩
  · unfold State.restForm State.atRest
    decide
  · refine ⟨fun _ => ⟨.inl rfl, rfl, rfl⟩, rfl, nofun, fun _ => rfl, nofun, nofun, nofun, nofun, fun c => ?_⟩
    cases c <;> rfl

/-- Settles O6: the registers by their offsets, and the invariants at reset (`reset_safe`). -/
theorem resetReadsZeroAndIsSafe : Obligations.ResetReadsZeroAndIsSafe := by
  unfold Obligations.ResetReadsZeroAndIsSafe
  refine ⟨by decide, fun s => ⟨rfl, ?_, register_status s, causes_word _, causes_word _, rfl, rfl, rfl, rfl, rfl, rfl,
    fun offset => register_other, registerByte_toNat s⟩, reset_safe⟩
  show BitVec.ofNat 32 s.link.enable.toNat = _
  cases s.link.enable <;> rfl

end Sys2Proof.Machine
end

section
/-! PROOFS of O25, O29, O32 and O34: control records that complete at once or wait at the Sensor Link, with what the arbiter of
the sensor port does for each requester. -/

set_option Elab.async false

namespace Sys2Proof.Machine

open Sys2Proof

/-! ## The interval timer behind an event (R12) -/

/-- What touches anything but the interval timer, with the timer tested behind it. -/
theorem timedBut_tidyInterval {ps : List Part} {s w : State} (frame : unchangedBut ps s w)
    (interval : ps.contains .interval = false := by decide) : timedBut ps s w.tidyInterval := by
  obtain ⟨stops, goes⟩ := tidyInterval_follows w
  refine ⟨(frame.mono fun _ => List.mem_cons_of_mem _).trans ((tidyInterval_frame w).mono fun p hp => ?_), stops,
    fun h => (goes h).trans (frame.get .interval interval)⟩
  simp only [List.mem_singleton] at hp
  simp [hp]

theorem timedBut.widen {ps : List Part} {s t : State} (h : timedBut ps s t) (qs : List Part)
    (hs : ps.all (fun p => qs.contains p) = true := by decide) : timedBut qs s t := by
  refine ⟨h.1.mono fun p hp => ?_, h.2⟩
  obtain rfl | hp := List.mem_cons.mp hp
  · exact List.mem_cons_self
  · exact List.mem_cons_of_mem _ (by simpa using List.all_eq_true.mp hs p hp)

@[simp] theorem tidyInterval_ctx (s : State) (c : CtxId) : s.tidyInterval.ctx c = s.ctx c := by
  unfold State.tidyInterval
  split <;> rfl

@[simp] theorem tidyInterval_sensor (s : State) : s.tidyInterval.sensor = s.sensor := by
  unfold State.tidyInterval
  split <;> rfl

@[simp] theorem tidyInterval_engine (s : State) : s.tidyInterval.engine = s.engine := by
  unfold State.tidyInterval
  split <;> rfl

@[simp] theorem tidyInterval_link (s : State) : s.tidyInterval.link = s.link := by
  unfold State.tidyInterval
  split <;> rfl

@[simp] theorem tidyInterval_ring (s : State) : s.tidyInterval.ring = s.ring := by
  unfold State.tidyInterval
  split <;> rfl

@[simp] theorem tidyInterval_seq (s : State) : s.tidyInterval.seq = s.seq := by
  unfold State.tidyInterval
  split <;> rfl

@[simp] theorem tidyInterval_cpl (s : State) : s.tidyInterval.cpl = s.cpl := by
  unfold State.tidyInterval
  split <;> rfl

@[simp] theorem tidyInterval_recv (s : State) : s.tidyInterval.recv = s.recv := by
  unfold State.tidyInterval
  split <;> rfl

/-- What was posted stands whatever the interval timer does. -/
theorem Posts.tidyInterval {u : Setup} {bs : List LinkWrite} {cs : List Completion} {s t : State} (h : Posts u bs cs s t) :
    Posts u bs cs s t.tidyInterval := by
  unfold Posts State.handed
  rw [tidyInterval_link, tidyInterval_cpl]
  exact h

theorem RecordTaken.tidyInterval {u : Setup} {s t : State} (h : RecordTaken u s t) : RecordTaken u s t.tidyInterval := by
  unfold RecordTaken
  rw [tidyInterval_ring]
  exact h

theorem RecordDone.tidyInterval {u : Setup} {cs : List Completion} {s t : State} (h : RecordDone u cs s t) :
    RecordDone u cs s t.tidyInterval := by
  obtain ⟨taken, posts, engine⟩ := h
  exact ⟨taken.tidyInterval, posts.tidyInterval, by rw [tidyInterval_engine]; exact engine⟩

theorem RecordHeld.tidyInterval {u : Setup} {j : Job} {s t : State} (h : RecordHeld u j s t) :
    RecordHeld u j s t.tidyInterval := by
  obtain ⟨taken, issued, engine⟩ := h
  exact ⟨taken.tidyInterval, by rw [tidyInterval_link]; exact issued, by rw [tidyInterval_engine]; exact engine⟩

/-! ## Records read and finished, or held (R138, R139) -/

theorem recordTaken_posts (u : Setup) (s : State) : Posts u [recordProgress u s] [] s (s.recordTaken u) :=
  ⟨by simp [runWrites, State.recordTaken], rfl, rfl, rfl⟩

/-- A record that completes at once, without touching anything else. -/
theorem recordFinished_done {u : Setup} {s : State} (h : s.readingControl u) (r : ControlResult) :
    RecordDone u [.control r] s ((s.recordTaken u).finishRecord r) :=
  RecordDone.of_finish h ⟨rfl, rfl⟩ (recordTaken_posts u s) (recordTaken_frame u s) r

theorem recordFinished_frame (u : Setup) (r : ControlResult) (s : State) :
    unchangedBut recordParts s ((s.recordTaken u).finishRecord r) :=
  ((recordTaken_frame u s).widen _).trans ((finishRecord_frame r _).widen _)

/-- The state with a record in hand that waits at the Sensor Link. -/
def State.recordHeld (u : Setup) (j : Job) (s : State) : State := (s.recordTaken u).hold j

theorem recordHeld_held (u : Setup) (j : Job) (s : State) : RecordHeld u j s (s.recordHeld u j) :=
  ⟨⟨rfl, rfl⟩, rfl, rfl⟩

theorem recordHeld_frame (u : Setup) (j : Job) (s : State) :
    unchangedBut [.ctlRing, .engine, .issued] s (s.recordHeld u j) := by
  intro p hp
  cases p <;> first | rfl | exact absurd (by decide) hp

/-- A change of the Sensor Link alone leaves the record in hand. -/
theorem RecordHeld.of_sensor {u : Setup} {j : Job} {s t v : State} (h : RecordHeld u j s t) (ring : v.ring = t.ring)
    (link : v.link = t.link) (engine : v.engine = t.engine) : RecordHeld u j s v := by
  unfold RecordHeld RecordTaken
  rw [ring, link, engine]
  exact h

/-- Settles O25: each of these records is finished as soon as it is read. -/
theorem marksAndRefusedRecords : Obligations.MarksAndRefusedRecords := by
  unfold Obligations.MarksAndRefusedRecords
  intro u tag s reading i r cases
  have finished : exec i s = .next ((s.recordTaken u).finishRecord r) := by
    rw [← takeRecord_recordTaken reading fun s => s.finishRecord r]
    rcases cases with ⟨rfl, rfl⟩ | ⟨kind, rfl, rfl⟩ | ⟨action, rfl, rfl⟩ | ⟨a, v, outside, rfl | rfl, rfl⟩ |
      ⟨a, outside, rfl, rfl⟩
    · rfl
    · rfl
    · rfl
    all_goals exact congrArg (fun f => Host.Outcome.next (s.takeRecord f)) (funext fun v => if_neg (Nat.not_lt.mpr outside))
  exact ⟨_, finished, recordFinished_done reading r, recordFinished_frame u r s⟩

/-! ## The arbiter (R110) -/

theorem begunNow_eq (owner : PortOwner) (op : PortOp) (s : State) :
    s.startTransaction owner op = { s with sensor := { s.sensor with port := some (begunNow owner op s) } } := rfl

theorem grantReplay_of_not_waiting {s : State} (h : s.sensor.replayWaits = false) : s.grantReplay = s := by
  simp [State.grantReplay, h]

theorem grantFlush_of_not_waiting {s : State} (h : s.sensor.flushWaits = false) : s.grantFlush = s := by
  simp [State.grantFlush, h]

theorem grantFlush_of_busy {s : State} (h : s.sensor.port ≠ none) : s.grantFlush = s := by
  simp [State.grantFlush, h]

theorem grantEngine_of_busy {s : State} (h : s.sensor.port ≠ none) : s.grantEngine = s := by
  simp [State.grantEngine, h]

/-- A free port is granted to the record in hand where no one before it waits (R113). -/
theorem arbitrate_engine {s : State} {j : Job} {op : PortOp} (free : s.sensor.port = none)
    (replay : s.sensor.replayWaits = false) (flush : s.sensor.flushWaits = false) (waits : s.sensor.engineWaits = true)
    (job : s.engine.job = some j) (hop : j.work.op = some op) :
    s.arbitrate =
      { s with sensor := { s.sensor with engineWaits := false, port := some (begunNow .engine op s) } } := by
  unfold State.arbitrate
  rw [grantReplay_of_not_waiting replay, grantFlush_of_not_waiting flush]
  unfold State.grantEngine
  rw [if_pos ⟨free, waits⟩]
  obtain ⟨tag, work⟩ := j
  cases work <;> cases hop <;> simp only [job] <;> rfl

/-- A free port is granted to a flush that may begin (R116). -/
theorem arbitrate_flush {s : State} {e : Staged} {rest : List Staged} (free : s.sensor.port = none)
    (replay : s.sensor.replayWaits = false) (waits : s.sensor.flushWaits = true) (may : s.flushCondition = true)
    (staged : s.sensor.staged = e :: rest) :
    s.arbitrate =
      { s with
        sensor :=
          { s.sensor with
            flushWaits := false
            staged := { e with inProgress := true } :: rest
            flush := some { generation := s.sensor.generation + 1, taken := 1 }
            port := some (begunNow .flush (.write e.address e.value) s) } } := by
  have begun : s.grantFlush = { s with
      sensor :=
        { s.sensor with
          flushWaits := false
          staged := { e with inProgress := true } :: rest
          flush := some { generation := s.sensor.generation + 1, taken := 1 }
          port := some (begunNow .flush (.write e.address e.value) s) } } := by
    unfold State.grantFlush
    rw [if_pos ⟨free, waits⟩]
    dsimp only
    rw [if_pos ⟨may, by rw [staged]; exact List.cons_ne_nil _ _⟩]
    exact beginFlush_of_staged (s := { s with sensor := { s.sensor with flushWaits := false } }) staged
  unfold State.arbitrate
  rw [grantReplay_of_not_waiting replay, begun, grantEngine_of_busy (Option.some_ne_none _)]

/-- A free port is granted to a replay with a STALE entry before it (R125). -/
theorem arbitrate_replay {s : State} {p : Nat × MirrorEntry} (free : s.sensor.port = none)
    (waits : s.sensor.replayWaits = true) (stale : nextStale s.sensor.replayPos s.sensor.mirror = some p) :
    s.arbitrate =
      { s with
        sensor :=
          { s.sensor with
            replayWaits := false
            replayPos := p.1 + 1
            port := some (begunNow .replay (.write (BitVec.ofNat 16 p.1) p.2.value) s) } } := by
  have granted : s.grantReplay = { s with
      sensor :=
        { s.sensor with
          replayWaits := false
          replayPos := p.1 + 1
          port := some (begunNow .replay (.write (BitVec.ofNat 16 p.1) p.2.value) s) } } := by
    unfold State.grantReplay State.replayNext
    rw [if_pos ⟨free, waits⟩]
    dsimp only
    rw [stale]
    rfl
  unfold State.arbitrate
  rw [granted, grantFlush_of_busy (Option.some_ne_none _), grantEngine_of_busy (Option.some_ne_none _)]

/-- With a busy port or nothing waiting for it the arbiter grants nothing. -/
theorem arbitrate_none {s : State} (h : s.sensor.port ≠ none ∨ s.noneWaits) : s.arbitrate = s := by
  obtain busy | ⟨replay, flush, engine⟩ := h
  · exact arbitrate_busy s busy
  · exact arbitrate_quiet s replay flush engine

theorem quietPort_of_unchanged {s t : State} (h : s.sensor.port ≠ none ∨ s.noneWaits) {ps : List Part}
    (frame : unchangedBut ps s t) (port : ps.contains .port = false := by decide)
    (waits : ps.contains .waits = false := by decide) : t.sensor.port ≠ none ∨ t.noneWaits := by
  have waits := frame.get .waits waits
  simp only [Part.same, Prod.mk.injEq] at waits
  obtain ⟨replay, flush, engine⟩ := waits
  unfold State.noneWaits
  rw [show t.sensor.port = s.sensor.port from frame.get .port port, replay, flush, engine]
  exact h

theorem portQuiet_of_unchanged {s t : State} (h : s.portQuiet) {ps : List Part} (frame : unchangedBut ps s t)
    (hps : ([Part.port, .waits, .engine].all fun p => !ps.contains p) = true := by decide) : t.portQuiet := by
  simp only [List.all_cons, List.all_nil, Bool.and_true, Bool.and_eq_true, Bool.not_eq_true'] at hps
  obtain ⟨port, waits, engine⟩ := hps
  refine ⟨quietPort_of_unchanged h.1 frame port waits, ?_⟩
  unfold State.noFlushRecord
  rw [show t.engine = s.engine from frame.get .engine engine]
  exact h.2

/-! ## FLUSH_STAGED in hand (R120) -/

theorem checkFlushRecord_done {s : State} {tag : Word} (job : s.engine.job = some { tag := tag, work := .flush })
    (staged : s.sensor.staged = []) (flush : s.sensor.flush = none) :
    s.checkFlushRecord = s.finishRecord { kind := 0x08, tag := tag, status := .done } := by
  simp only [State.checkFlushRecord, job]
  exact if_pos ⟨staged, flush⟩

theorem checkFlushRecord_asks {s : State} {tag : Word} (job : s.engine.job = some { tag := tag, work := .flush })
    (staged : s.sensor.staged ≠ []) (may : s.flushCondition = true) :
    s.checkFlushRecord = { s with sensor := { s.sensor with flushWaits := true } } := by
  simp only [State.checkFlushRecord, job]
  rw [if_neg fun h => staged h.1, if_pos ⟨staged, may⟩]

theorem checkFlushRecord_waits {s : State} {tag : Word} (job : s.engine.job = some { tag := tag, work := .flush })
    (busy : s.sensor.staged = [] → s.sensor.flush ≠ none) (held : s.sensor.staged ≠ [] → s.flushCondition = false) :
    s.checkFlushRecord = s := by
  simp only [State.checkFlushRecord, job]
  rw [if_neg fun h => busy h.1 h.2, if_neg fun h => absurd ((held h.1).symm.trans h.2) Bool.false_ne_true]

/-- A FLUSH_STAGED in hand whose flush may begin has it on a free port (R116, R120). -/
theorem follow_begins {s : State} {tag : Word} {e : Staged} {rest : List Staged}
    (job : s.engine.job = some { tag := tag, work := .flush }) (staged : s.sensor.staged = e :: rest)
    (may : s.flushCondition = true) (free : s.sensor.port = none) (replay : s.sensor.replayWaits = false) :
    s.follow = State.tidyInterval { s with
      sensor :=
        { s.sensor with
          flushWaits := false
          staged := { e with inProgress := true } :: rest
          flush := some { generation := s.sensor.generation + 1, taken := 1 }
          port := some (begunNow .flush (.write e.address e.value) s) } } := by
  unfold State.follow
  rw [checkFlushRecord_asks job (by rw [staged]; exact List.cons_ne_nil _ _) may]
  exact congrArg State.tidyInterval
    (arbitrate_flush (s := { s with sensor := { s.sensor with flushWaits := true } }) free replay rfl may staged)

/-- On a busy port it waits for it (R110). -/
theorem follow_asks {s : State} {tag : Word} (job : s.engine.job = some { tag := tag, work := .flush })
    (staged : s.sensor.staged ≠ []) (may : s.flushCondition = true) (busy : s.sensor.port ≠ none) :
    s.follow = State.tidyInterval { s with sensor := { s.sensor with flushWaits := true } } := by
  unfold State.follow
  rw [checkFlushRecord_asks job staged may]
  exact congrArg State.tidyInterval (arbitrate_busy { s with sensor := { s.sensor with flushWaits := true } } busy)

theorem flushCondition_of_flush {s : State} (h : s.sensor.flush ≠ none) : s.flushCondition = false := by
  unfold State.flushCondition
  cases hf : s.sensor.flush with
  | none => exact absurd hf h
  | some f => simp

theorem noFlushRecord_of_work {s : State} {j : Job} (job : s.engine.job = some j) (work : j.work ≠ .flush) :
    s.noFlushRecord := by
  simp [State.noFlushRecord, job, work]

/-! ## The Sensor Link's records -/

/-- What an immediate WRITE or a READ comes to at the Sensor Link (R113, R135). -/
theorem exec_sensorAccess {u : Setup} {s : State} (h : s.readingControl u) (tag : Word) (a v : Half)
    (address : a.toNat < 512) :
    exec (.sensorWriteNow tag a v) s =
        .next ((s.recordTaken u).sensorAccess 0x05 { tag := tag, work := .write a v }) ∧
      exec (.sensorRead tag a) s = .next ((s.recordTaken u).sensorAccess 0x06 { tag := tag, work := .read a }) := by
  refine ⟨?_, ?_⟩
  · show Host.Outcome.next (s.takeRecord _) = _
    rw [takeRecord_recordTaken h]
    exact congrArg _ (if_pos address)
  · show Host.Outcome.next (s.takeRecord _) = _
    rw [takeRecord_recordTaken h]
    exact congrArg _ (if_pos address)

/-- An immediate WRITE or a READ by the power state (R109, R110, R113, Table 45). -/
theorem sensorAccess_table45 {u : Setup} {s : State} (h : s.readingControl u) (kind : Byte) (j : Job) (op : PortOp)
    (hop : j.work.op = some op) :
    (s.sensor.power = .off ∨ s.sensor.power = .settling →
      RecordDone u [.control { kind := kind, tag := j.tag, status := .sensorOff }] s ((s.recordTaken u).sensorAccess kind j) ∧
        unchangedBut recordParts s ((s.recordTaken u).sensorAccess kind j)) ∧
    (s.sensor.power = .replaying →
      RecordHeld u j s ((s.recordTaken u).sensorAccess kind j) ∧
        unchangedBut [.ctlRing, .engine, .issued] s ((s.recordTaken u).sensorAccess kind j)) ∧
    (s.sensor.power = .ready → s.sensor.port ≠ none →
      (s.recordTaken u).sensorAccess kind j =
        { s.recordHeld u j with sensor := { s.sensor with engineWaits := true } }) ∧
    (s.sensor.power = .ready → s.sensor.port = none → s.sensor.replayWaits = false → s.sensor.flushWaits = false →
      (s.recordTaken u).sensorAccess kind j =
        { s.recordHeld u j with
          sensor := { s.sensor with engineWaits := false, port := some (begunNow .engine op s) } }) := by
  have access : (s.recordTaken u).sensorAccess kind j = match s.sensor.power with
      | .off => (s.recordTaken u).finishRecord { kind := kind, tag := j.tag, status := .sensorOff }
      | .settling => (s.recordTaken u).finishRecord { kind := kind, tag := j.tag, status := .sensorOff }
      | .replaying => s.recordHeld u j
      | .ready => State.arbitrate { s.recordHeld u j with sensor := { s.sensor with engineWaits := true } } := by
    unfold State.sensorAccess
    cases power : s.sensor.power <;> simp only [show (s.recordTaken u).sensor.power = _ from power] <;> rfl
  rw [access]
  refine ⟨fun power => ?_, fun power => ?_, fun power busy => ?_, fun power free replay flush => ?_⟩
  · obtain power | power := power <;> rw [power] <;> exact ⟨recordFinished_done h _, recordFinished_frame u _ s⟩
  · rw [power]
    exact ⟨recordHeld_held u j s, recordHeld_frame u j s⟩
  · rw [power]
    exact arbitrate_busy _ busy
  · rw [power]
    exact arbitrate_engine (j := j) free replay flush rfl rfl hop

/-- Settles O29: a WRITE and a READ alike, by the power state. -/
theorem immediateSensorAccess : Obligations.ImmediateSensorAccess := by
  unfold Obligations.ImmediateSensorAccess
  intro u tag a v s reading address x hx
  obtain ⟨i, kind, work, op⟩ := x
  have key : exec i s = .next ((s.recordTaken u).sensorAccess kind { tag := tag, work := work }) ∧ work.op = some op := by
    obtain ⟨write, read⟩ := exec_sensorAccess reading tag a v address
    simp only [List.mem_cons, Prod.mk.injEq, List.not_mem_nil, or_false] at hx
    obtain ⟨rfl, rfl, rfl, rfl⟩ | ⟨rfl, rfl, rfl, rfl⟩ := hx
    · exact ⟨write, rfl⟩
    · exact ⟨read, rfl⟩
  obtain ⟨run, hop⟩ := key
  obtain ⟨off, replaying, busy, free⟩ := sensorAccess_table45 reading kind { tag := tag, work := work } op hop
  refine ⟨_, run, off, replaying, fun power port => ?_, fun power port replay flush => ?_⟩
  · rw [busy power port]
    refine ⟨recordHeld_held u _ s, rfl, fun p hp => ?_⟩
    cases p <;> first | rfl | exact absurd (by decide) hp
  · rw [free power port replay flush]
    refine ⟨recordHeld_held u _ s, rfl, fun p hp => ?_⟩
    cases p <;> first | rfl | exact absurd (by decide) hp

/-- A waiting set of the Sensor Link changed, and nothing else. -/
theorem setWaits_frame (s : State) (replay flush engine : Bool) : unchangedBut [.waits] s
    { s with sensor := { s.sensor with replayWaits := replay, flushWaits := flush, engineWaits := engine } } := by
  intro p hp
  cases p <;> first | rfl | exact absurd (by decide) hp

/-- In GAP a context waits while the sensor settles (R31). -/
theorem gapAdvance_settling {s : State} (h : s.sensor.power = .settling) (c : CtxId) : s.gapAdvance c = s := by
  unfold State.gapAdvance
  rw [h]
  split
  · rfl
  · split <;> rfl

/-- While the sensor settles, with an ON or CYCLE in hand, the arbiter can only withdraw what waits (R110, R116). -/
theorem arbitrate_settling {s : State} {j : Job} (power : s.sensor.power = .settling) (replay : s.sensor.replayWaits = false)
    (job : s.engine.job = some j) (work : j.work.op = none) (other : j.work ≠ .flush) : ∃ flush engine,
    s.arbitrate = { s with sensor := { s.sensor with flushWaits := flush, engineWaits := engine } } := by
  have flushed : ∃ flush, s.grantFlush = { s with sensor := { s.sensor with flushWaits := flush } } := by
    unfold State.grantFlush
    split
    · refine ⟨false, ?_⟩
      have settling : ({ s with sensor := { s.sensor with flushWaits := false } } : State).sensor.power = .settling := power
      dsimp only
      rw [if_neg (by simp [State.flushCondition, power]), gapAdvance_settling (c := .c0) settling,
        gapAdvance_settling (c := .c1) settling]
      exact checkFlushRecord_other _ (noFlushRecord_of_work job other)
    · exact ⟨s.sensor.flushWaits, rfl⟩
  unfold State.arbitrate
  rw [grantReplay_of_not_waiting replay]
  obtain ⟨flush, flushed⟩ := flushed
  rw [flushed]
  unfold State.grantEngine
  split
  · refine ⟨flush, false, ?_⟩
    dsimp only
    rw [job]
    obtain ⟨tag, w⟩ := j
    cases w
    case write | read => cases work
    case power | flush => rfl
  · exact ⟨flush, s.sensor.engineWaits, rfl⟩

/-- Power comes up for a record in hand (R124, R127): the state at the end of the command. -/
theorem poweringUp_held {w : State} {j : Job} (replay : Bool) (waits : w.sensor.replayWaits = false) (work : j.work.op = none)
    (other : j.work ≠ .flush) : ∃ flush engine, ((w.applyPower replay).hold j).follow =
      State.tidyInterval { (w.applyPower replay).hold j with
        sensor := { (w.applyPower replay).sensor with flushWaits := flush, engineWaits := engine } } := by
  obtain ⟨flush, engine, settled⟩ :=
    arbitrate_settling (s := (w.applyPower replay).hold j) rfl waits rfl work other
  refine ⟨flush, engine, ?_⟩
  unfold State.follow
  rw [checkFlushRecord_other _ (noFlushRecord_of_work rfl other), settled]
  rfl

theorem exec_sensorPowerOn {u : Setup} {s : State} (h : s.readingControl u) (tag : Word) (replay : Bool) :
    exec (.sensorPowerOn tag replay) s = .next (match s.sensor.power with
      | .off =>
        (((s.recordTaken u).applyPower replay).hold { tag := tag, work := .power false replay false }).follow
      | .settling => s.recordHeld u { tag := tag, work := .power false replay true }
      | .replaying => s.recordHeld u { tag := tag, work := .power false replay true }
      | .ready => (s.recordTaken u).finishRecord { kind := 0x07, tag := tag, status := .already }) := by
  show Host.Outcome.next (s.takeRecord _) = _
  rw [takeRecord_recordTaken h, show (s.recordTaken u).sensor.power = s.sensor.power from rfl]
  cases s.sensor.power <;> rfl

/-- Settles O32, by the power state. -/
theorem sensorPowerOn : Obligations.SensorPowerOn := by
  unfold Obligations.SensorPowerOn
  intro u tag replay s reading form
  refine ⟨_, exec_sensorPowerOn reading tag replay, fun power => ?_, fun power => ?_, fun power => ?_⟩
  · obtain ⟨waits, -⟩ := powerForm_quiet form (by rw [power]; decide)
    obtain ⟨flush, engine, run⟩ := poweringUp_held (w := s.recordTaken u)
      (j := { tag := tag, work := .power false replay false }) replay waits rfl nofun
    rw [power]
    dsimp only
    rw [run]
    refine ⟨RecordHeld.tidyInterval ((recordHeld_held u _ s).of_sensor rfl rfl rfl), ?_, timedBut_tidyInterval ?_⟩
    · unfold PoweringUp
      rw [tidyInterval_sensor]
      exact ⟨rfl, rfl, rfl, rfl, rfl, rfl, rfl, rfl⟩
    · intro p hp
      cases p <;> first | rfl | exact absurd (by decide) hp
  · obtain power | power := power <;> rw [power] <;> exact ⟨recordHeld_held u _ s, recordHeld_frame u _ s⟩
  · rw [power]
    exact ⟨recordFinished_done reading _, recordFinished_frame u _ s⟩

theorem exec_flushStaged {u : Setup} {s : State} (h : s.readingControl u) (tag : Word) :
    exec (.flushStaged tag) s = .next (
      if s.sensor.power = .off ∨ s.sensor.power = .settling then
        (s.recordTaken u).finishRecord { kind := 0x08, tag := tag, status := .sensorOff }
      else (s.recordHeld u { tag := tag, work := .flush }).follow) := by
  show Host.Outcome.next (s.takeRecord _) = _
  rw [takeRecord_recordTaken h]
  rfl

/-- Settles O34, by the cases of Table 46. -/
theorem flushStagedFollowsTable46 : Obligations.FlushStagedFollowsTable46 := by
  unfold Obligations.FlushStagedFollowsTable46
  intro u tag s reading ⟨port, other⟩
  clear other
  have held := recordHeld_held u { tag := tag, work := .flush } s
  have frame := recordHeld_frame u { tag := tag, work := .flush } s
  have job : (s.recordHeld u { tag := tag, work := .flush }).engine.job = some { tag := tag, work := .flush } := rfl
  have awake (power : s.sensor.power = .ready ∨ s.sensor.power = .replaying) :
      ¬ (s.sensor.power = .off ∨ s.sensor.power = .settling) := by
    obtain power | power := power <;> simp [power]
  have ready (may : s.flushCondition = true) : s.sensor.power = .ready := ((flushCondition_iff s).mp may).2.2.1
  refine ⟨_, exec_flushStaged reading tag, fun power => ?_, fun power staged flush => ?_, fun power waits => ?_,
    fun e rest staged may free => ?_, fun staged may busy => ?_⟩
  · rw [if_pos power]
    exact ⟨recordFinished_done reading _, recordFinished_frame u _ s⟩
  · have quiet := quietPort_of_unchanged (quietPort_of_unchanged port frame)
      (finishRecord_frame { kind := 0x08, tag := tag, status := .done } _)
    rw [if_neg (awake power)]
    unfold State.follow
    rw [checkFlushRecord_done job staged flush, arbitrate_none quiet]
    exact ⟨RecordDone.tidyInterval (.of_finish (v := s.recordHeld u { tag := tag, work := .flush }) reading ⟨rfl, rfl⟩
        (recordTaken_posts u s) frame _),
      timedBut_tidyInterval ((frame.widen _).trans ((finishRecord_frame _ _).widen _))⟩
  · rw [if_neg (awake power)]
    unfold State.follow
    rw [checkFlushRecord_waits job (by tauto) ?_, arbitrate_none (quietPort_of_unchanged port frame)]
    · exact ⟨held.tidyInterval, timedBut_tidyInterval frame⟩
    · intro _
      obtain flush | ⟨-, may⟩ := waits
      · exact flushCondition_of_flush flush
      · exact may
  · obtain ⟨replay, flush, engine⟩ := port.resolve_left (not_not.mpr free)
    rw [if_neg (awake (.inl (ready may)))]
    rw [follow_begins job (e := e) (rest := rest) staged may free replay]
    refine ⟨RecordHeld.tidyInterval (held.of_sensor rfl rfl rfl), ?_, ?_, ?_, timedBut_tidyInterval ?_⟩
    · rw [tidyInterval_sensor]
    · rw [tidyInterval_sensor]
      rfl
    · rw [tidyInterval_sensor]
      rfl
    · intro p hp
      cases p
      case waits => exact congrArg (fun b => (s.sensor.replayWaits, b, s.sensor.engineWaits)) flush.symm
      all_goals first | rfl | exact absurd (by decide) hp
  · rw [if_neg (awake (.inl (ready may)))]
    rw [follow_asks job staged may busy]
    refine ⟨RecordHeld.tidyInterval (held.of_sensor rfl rfl rfl), ?_, timedBut_tidyInterval ?_⟩
    · rw [tidyInterval_sensor]
      rfl
    · intro p hp
      cases p <;> first | rfl | exact absurd (by decide) hp

end Sys2Proof.Machine
end

section
/-! PROOFS of O38, O43 and O46: a frame is begun, a line is tested and cut, a slice is written. -/

set_option Elab.async false

namespace Sys2Proof.Machine

open Sys2Proof

/-! ## The frame of a context -/

@[simp] theorem setCtx_setCtx (s : State) (c : CtxId) (f g : Option Frame) : (s.setCtx c f).setCtx c g = s.setCtx c g := by
  cases c <;> rfl

theorem setCtx_self {s : State} {c : CtxId} {f : Option Frame} (h : s.ctx c = f) : s.setCtx c f = s := by
  subst h
  cases c <;> rfl

@[simp] theorem updCtx_setCtx (s : State) (c : CtxId) (f : Frame) (g : Frame → Frame) :
    (s.setCtx c (some f)).updCtx c g = s.setCtx c (some (g f)) := by
  rw [updCtx_of_ctx (setCtx_ctx_same s c _), setCtx_setCtx]

@[simp] theorem setCtx_request (s : State) (c : CtxId) (f : Option Frame) : (s.setCtx c f).request = s.request := by
  cases c <;> rfl

/-! ## A frame is begun (R13, R27, R28) -/

theorem liveRequest_iff {s : State} {r : CaptureRequest} : s.liveRequest = some r ↔
    ∃ e, s.sched.queue.head? = some e ∧ e.mark = .none ∧ e.request = some r := by
  unfold State.liveRequest
  cases s.sched.queue with
  | nil => simp
  | cons e rest => by_cases mark : e.mark = .none <;> simp [mark]

theorem otherAllows_iff (r : CaptureRequest) (c : CtxId) (s : State) : s.otherAllows r c = true ↔
    s.ctx c = none ∨ s.inPhase c .closing = true ∨ (r.overlap = true ∧ s.inPhase c .readout = true) := by
  unfold State.otherAllows State.inPhase
  cases s.ctx c <;> simp

/-- The frame to begin is what R13 allows. -/
theorem frameToBegin_iff (s : State) (e : Entry) (r : CaptureRequest) :
    s.frameToBegin = some (e, r) ↔ MayBegin e r s := by
  unfold State.frameToBegin MayBegin
  cases hq : s.sched.queue with
  | nil => simp
  | cons d rest =>
    cases hr : s.liveRequest with
    | none =>
      simp only [reduceCtorEq, List.head?_cons, Option.some.injEq, false_iff]
      rintro ⟨rfl, request, mark, -⟩
      rw [liveRequest_iff.mpr ⟨d, by rw [hq]; rfl, mark, request⟩] at hr
      cases hr
    | some q =>
      obtain ⟨d', head, mark, request⟩ := liveRequest_iff.mp hr
      rw [hq] at head
      obtain rfl := Option.some.inj head
      simp only [List.head?_cons, Option.some.injEq]
      constructor
      · intro h
        split at h
        · rename_i may
          simp only [Option.some.injEq, Prod.mk.injEq] at h
          obtain ⟨rfl, rfl⟩ := h
          obtain ⟨more, mode, cause, free, allows⟩ := may
          exact ⟨rfl, request, mark, more, mode, cause, free, (otherAllows_iff ..).mp allows⟩
        · cases h
      · rintro ⟨rfl, same, -, more, mode, cause, free, allows⟩
        obtain rfl := Option.some.inj (request.symm.trans same)
        rw [if_pos ⟨more, mode, cause, free, (otherAllows_iff ..).mpr allows⟩]

theorem begun_frame (c d : CtxId) (f : Option Frame) (queue : List Entry) (s : State) :
    unchangedBut [.contexts, .pointer, .queue] s
      { s.setCtx c f with
        seq := { (s.setCtx c f).seq with next := d }, sched := { s.sched with queue := queue } } := by
  intro p hp
  cases c <;> cases p <;> first | rfl | exact absurd (by decide) hp

/-- Settles O38, by `frameToBegin_iff`. -/
theorem frameIsBegun : Obligations.FrameIsBegun := by
  unfold Obligations.FrameIsBegun
  intro s
  cases h : s.frameToBegin with
  | none =>
    refine ⟨s, by simp [exec, execFrameBegin, h], fun e r may => ?_, fun _ => rfl⟩
    rw [(frameToBegin_iff s e r).mpr may] at h
    cases h
  | some p =>
    obtain ⟨e, r⟩ := p
    have begins := (frameToBegin_iff s e r).mp h
    obtain ⟨rest, queue⟩ : ∃ rest, s.sched.queue = e :: rest := by
      obtain ⟨head, -⟩ := begins
      exact List.head?_eq_some_iff.mp head
    have run : exec .frameBegin s = .next
        { s.setCtx s.seq.next (some (newFrame e.begun r.windows)) with
          seq := { (s.setCtx s.seq.next (some (newFrame e.begun r.windows))).seq with next := other s.seq.next }
          sched := { s.sched with queue := { e with begun := e.begun + 1 } :: rest } } := by
      show execFrameBegin s = _
      simp only [execFrameBegin, h, State.updHead, setCtx_sched, queue]
    refine ⟨_, run, fun d q may => ?_, fun none => absurd begins (none e r)⟩
    rw [(frameToBegin_iff s d q).mpr may] at h
    cases h
    refine ⟨setCtx_ctx_same s s.seq.next _, setCtx_ctx_other s s.seq.next _, rfl, by rw [queue]; rfl, ?_⟩
    exact begun_frame s.seq.next _ _ _ s

/-! ## A LINE (R79 to R82) -/

/-- The slices that a line taken into sequence leaves in hand (R70, R82). -/
def State.lineSlices (c : CtxId) (number : Nat) (pixels : List Nat) (f : Frame) (s : State) : List Slice :=
  if pixels.length ≠ s.columns ∨ f.flags.discard = true then []
  else (s.request.map fun r => cutLine s.cutter.windows c s.depth number (assemble s.cutter.order s.columns pixels) 0
    r.windows).getD []

/-- The frame after the test of a line's length and content (R81). -/
def Frame.tested (bad : Prop) [Decidable bad] (f : Frame) : Frame := if bad then f.countBad else f

/-- What a LINE leaves: the frame, the slices in hand and the expected line number. -/
def State.lineLeft (c : CtxId) (f : Frame) (slices : List Slice) (expected : Nat) (s : State) : State :=
  { s.setCtx c (some f) with
    recv := { s.recv with expected := expected }
    cutter := { s.cutter with inHand := s.cutter.inHand ++ slices } }

theorem lineLeft_frame (c : CtxId) (f : Frame) (slices : List Slice) (expected : Nat) (s : State) :
    unchangedBut [.contexts, .receiver, .inHand] s (s.lineLeft c f slices expected) := by
  intro p hp
  cases c <;> cases p <;> first | rfl | exact absurd (by decide) hp

theorem deliverLine_eq {c : CtxId} {f : Frame} {s : State} (ctx : s.ctx c = some f) (number : Nat) (pixels : List Nat)
    (right : pixels.length = s.columns) :
    s.deliverLine c number pixels =
      { s with cutter := { s.cutter with inHand := s.cutter.inHand ++ s.lineSlices c number pixels f } } := by
  unfold State.deliverLine State.lineSlices
  cases request : s.request with
  | none => simp [ctx]
  | some r => by_cases discard : f.flags.discard = true <;> simp [ctx, discard, right]

@[simp] theorem countBad_discard (f : Frame) : f.countBad.flags.discard = f.flags.discard := rfl

theorem testLine_eq {c : CtxId} {f : Frame} {s : State} (ctx : s.ctx c = some f) (number : Nat) (pixels : List Nat)
    (check : Half) :
    s.testLine c number pixels check = s.lineLeft c
      (f.tested (pixels.length ≠ s.columns ∨ pixels.sum % 65536 ≠ check.toNat)) (s.lineSlices c number pixels f)
      s.recv.expected := by
  unfold State.testLine Frame.tested
  by_cases right : pixels.length = s.columns
  · by_cases sum : pixels.sum % 65536 = check.toNat
    · rw [if_neg (by simpa using right), if_pos sum, deliverLine_eq ctx number pixels right, if_neg (by simp [right, sum]),
        State.lineLeft, setCtx_self ctx]
    · have slices : (s.setCtx c (some f.countBad)).lineSlices c number pixels f.countBad = s.lineSlices c number pixels f := by
        cases c <;> rfl
      rw [if_neg (by simpa using right), if_neg sum, updCtx_of_ctx ctx,
        deliverLine_eq (setCtx_ctx_same ..) number pixels (by cases c <;> exact right), slices,
        if_pos (by simp [sum]), State.lineLeft]
      cases c <;> rfl
  · rw [if_pos right, updCtx_of_ctx ctx, if_pos (.inl right), State.lineLeft, State.lineSlices, if_pos (.inl right),
      List.append_nil]
    cases c <;> rfl

/-- The frame of a line that is taken into sequence (R80). -/
def Frame.lineTaken (expected number : Nat) (f : Frame) : Frame :=
  { f with
    missingLines := f.missingLines + (number - expected)
    flags := { f.flags with sequence := f.flags.sequence || decide (expected < number) } }

theorem takeLine_eq {c : CtxId} {f : Frame} {s : State} (ctx : s.ctx c = some f) (number : Nat) :
    s.takeLine c number =
      s.lineLeft c { f with missingLines := f.missingLines + (number - s.recv.expected) } [] (number + 1) := by
  simp only [State.takeLine, updCtx_of_ctx ctx, State.lineLeft, List.append_nil]
  cases c <;> rfl

theorem takeLine_flagged {c : CtxId} {f : Frame} {s : State} (ctx : s.ctx c = some f) {number : Nat}
    (notEarly : s.recv.expected ≤ number) :
    State.takeLine c number (if number = s.recv.expected then s else s.updCtx c Frame.flagSequence) =
      s.lineLeft c (f.lineTaken s.recv.expected number) [] (number + 1) := by
  by_cases next : number = s.recv.expected
  · have same : f.lineTaken s.recv.expected number = { f with missingLines := f.missingLines + (number - s.recv.expected) } := by
      simp [Frame.lineTaken, next]
    rw [if_pos next, takeLine_eq ctx, same]
  · have later : s.recv.expected < number := by omega
    have same : f.lineTaken s.recv.expected number =
        { f.flagSequence with missingLines := f.missingLines + (number - s.recv.expected) } := by
      simp [Frame.lineTaken, Frame.flagSequence, later]
    rw [if_neg next, updCtx_of_ctx ctx, takeLine_eq (setCtx_ctx_same ..), same]
    cases c <;> rfl

/-- A LINE whose place is in the frame and not before the expected line. -/
theorem receiveLine_taken {c : CtxId} {f : Frame} {s : State} (ctx : s.ctx c = some f) {number : Nat}
    (inFrame : number < s.lines) (notEarly : s.recv.expected ≤ number) (pixels : List Nat) (check : Half) :
    s.receiveLine c number pixels check = s.lineLeft c
      ((f.lineTaken s.recv.expected number).tested (pixels.length ≠ s.columns ∨ pixels.sum % 65536 ≠ check.toNat))
      (s.lineSlices c number pixels f) (number + 1) := by
  unfold State.receiveLine
  rw [if_neg (by omega)]
  show State.testLine c number pixels check (State.takeLine c number _) = _
  rw [takeLine_flagged ctx notEarly, testLine_eq (f := f.lineTaken s.recv.expected number) (by cases c <;> rfl)]
  cases c <;> simp only [State.lineLeft, State.setCtx, State.lineSlices, State.request, State.columns, State.depth,
    Frame.lineTaken, List.append_nil] <;> rfl

/-- Settles O43: a LINE out of place flags the frame alone, and any other leaves `lineLeft`. -/
theorem linesAreTestedAndCut : Obligations.LinesAreTestedAndCut := by
  unfold Obligations.LinesAreTestedAndCut
  rintro number pixels check c f s receiving served ctx values rfl
  have run : exec (.line number pixels check) s =
      .next (s.receiveLine c number.toNat (pixels.map (pixelValue s.depth)) check) := by
    simp [exec, execLine, receiving, served]
  by_cases out : s.lines ≤ number.toNat ∨ number.toNat < s.recv.expected
  · have left : s.receiveLine c number.toNat (pixels.map (pixelValue s.depth)) check =
        s.setCtx c (some f.flagSequence) := by
      rw [State.receiveLine, if_pos out, updCtx_of_ctx ctx]
    rw [left] at run
    refine ⟨_, run, setCtx_ctx_other .., fun _ => ⟨setCtx_ctx_same .., setCtx_frame _ _ _⟩, fun inFrame notEarly => ?_⟩
    omega
  · rw [receiveLine_taken ctx (by omega) (by omega)] at run
    refine ⟨_, run, by cases c <;> rfl, fun h => absurd h out, fun _ _ => ⟨rfl, ?_, ?_, lineLeft_frame _ _ _ _ _⟩⟩
    · refine .trans (b := some _) (by cases c <;> rfl) (congrArg some ?_)
      rw [List.length_map]
      change Frame.tested (pixels.length ≠ s.columns ∨ (pixels.map fun p => p.toNat % 2 ^ s.depth).sum % 65536 ≠
        check.toNat) _ = _
      generalize pixels.map (fun p => p.toNat % 2 ^ s.depth) = values
      by_cases bad : pixels.length ≠ s.columns ∨ values.sum % 65536 ≠ check.toNat
      · simp only [Frame.tested, bad, Frame.countBad, Frame.lineTaken, if_true, decide_true, Bool.or_true]
      · simp only [Frame.tested, bad, Frame.lineTaken, if_false, decide_false, Bool.or_false, Nat.add_zero]
    · show s.cutter.inHand ++ _ = _
      rw [State.lineSlices, List.length_map]
      rfl

/-! ## Slices written (R103) -/

/-- Settles O46: the buffer of the slice is that of its assignment. -/
theorem slicesAreWritten : Obligations.SlicesAreWritten := by
  unfold Obligations.SlicesAreWritten
  intro sl rest f a b s slices ctx assignment buffer
  have target : s.sliceBuffer sl = some b := by simp [State.sliceBuffer, ctx, assignment, buffer]
  have run : exec .sliceWriteDone s = .next
      (State.setCtx sl.ctx (some (f.addWritten sl.position sl.size)) (State.issue
        (.memory (b.addr + BitVec.ofNat 64 sl.offset) sl.data) { s with store := { s.store with slices := rest } })) := by
    rw [← updCtx_of_ctx (s := State.issue _ { s with store := { s.store with slices := rest } }) (f := f) ctx]
    simp [exec, execSliceWriteDone, slices, target]
  have written : f.assignments.modify sl.position (fun a => { a with written := a.written + sl.size }) =
      f.assignments.set sl.position { a with written := a.written + sl.data.length } := by
    simp [List.modify_eq_set_getElem?, assignment, Slice.size]
  refine ⟨_, run, ?_, ?_, ?_, setCtx_ctx_other _ _ _, ?_⟩
  · rw [setCtx_store]
    rfl
  · rw [setCtx_link]
    rfl
  · rw [setCtx_ctx_same]
    unfold Frame.addWritten
    rw [written]
  · refine .trans ?_ ((setCtx_frame _ _ _).widen _)
    intro p hp
    cases p <;> first | rfl | exact absurd (by decide) hp

end Sys2Proof.Machine
end

section
/-! PROOFS of O23, O53 and O54: assignments served in list order, the segment order, and the slices of a line. -/

set_option Elab.async false

namespace Sys2Proof.Machine

open Sys2Proof

/-! ## Assignments served in list order (Table 38) -/

/-- An assignment that has its buffer keeps it. -/
theorem serve_held {a : Assignment} (held : a.buffer.isSome = true) (rest : List Assignment) (cache : List CacheEntry) :
    serve (a :: rest) cache = (a :: (serve rest cache).1, (serve rest cache).2) := by
  rw [serve.eq_def]
  simp only [held, if_true]

theorem serve_empty {a : Assignment} (unheld : a.buffer = none) (rest : List Assignment) :
    serve (a :: rest) [] = (a :: rest, [], .cacheEmpty) := by
  rw [serve.eq_def]
  simp [unheld]

theorem serve_return {a : Assignment} {e : CacheEntry} (unheld : a.buffer = none)
    (unfit : e.valid = false ∨ e.length < a.byteSize) (rest : List Assignment) (more : List CacheEntry) :
    serve (a :: rest) (e :: more) = (a :: rest, e :: more, .returnFront) := by
  rw [serve.eq_def]
  simp [unheld, unfit]

/-- An assignment takes the front entry, which is valid and long enough. -/
theorem serve_take {a : Assignment} {e : CacheEntry} (unheld : a.buffer = none) (valid : e.valid = true)
    (fits : a.byteSize ≤ e.length) (rest : List Assignment) (more : List CacheEntry) :
    serve (a :: rest) (e :: more) =
      ({ a with buffer := some e.asBuffer } :: (serve rest more).1, (serve rest more).2) := by
  rw [serve.eq_def]
  simp [unheld, valid, fits, CacheEntry.asBuffer]

/-- Induction along the five cases of Table 38. -/
theorem serve_induction {P : List Assignment → List CacheEntry → Prop} (nil : ∀ cache, P [] cache)
    (held : ∀ a rest cache, a.buffer.isSome = true → P rest cache → P (a :: rest) cache)
    (empty : ∀ a rest, a.buffer = none → P (a :: rest) [])
    (front : ∀ a rest e more, a.buffer = none → (e.valid = false ∨ e.length < a.byteSize) → P (a :: rest) (e :: more))
    (take : ∀ a rest e more, a.buffer = none → e.valid = true → a.byteSize ≤ e.length → P rest more →
      P (a :: rest) (e :: more)) (as : List Assignment) (cache : List CacheEntry) : P as cache := by
  induction as, cache using serve.induct with
  | case1 cache => exact nil cache
  | case2 a rest cache has ih => exact held a rest cache has ih
  | case3 a rest unheld => exact empty a rest (by simpa using unheld)
  | case4 a rest unheld e more unfit => exact front a rest e more (by simpa using unheld) unfit
  | case5 a rest unheld e more fits ih =>
    rw [not_or, Bool.not_eq_false, Nat.not_lt] at fits
    exact take a rest e more (by simpa using unheld) fits.1 fits.2 ih

/-- What serving makes of one assignment: it keeps a buffer it holds, and one it gets is long enough. -/
def Assignment.ServedAs (a b : Assignment) : Prop :=
  if a.buffer.isSome then b = a
  else b = { a with buffer := b.buffer } ∧ b.buffer.all (fun buffer => decide (a.byteSize ≤ buffer.length)) = true

theorem Assignment.ServedAs.refl (a : Assignment) : a.ServedAs a := by
  unfold Assignment.ServedAs
  split
  · rfl
  next unheld => exact ⟨rfl, by simp [Option.not_isSome_iff_eq_none.mp unheld]⟩

theorem servedAs_refl (as : List Assignment) : List.Forall₂ Assignment.ServedAs as as := by
  induction as with
  | nil => exact .nil
  | cons a rest ih => exact .cons (.refl a) ih

theorem serve_each (as : List Assignment) (cache : List CacheEntry) :
    List.Forall₂ Assignment.ServedAs as (serve as cache).1 := by
  induction as, cache using serve_induction with
  | nil cache => exact .nil
  | held a rest cache held ih => exact serve_held held rest cache ▸ .cons (.refl a) ih
  | empty a rest unheld => exact serve_empty unheld rest ▸ servedAs_refl _
  | front a rest e more unheld unfit => exact serve_return unheld unfit rest more ▸ servedAs_refl _
  | take a rest e more unheld valid fits ih =>
    rw [serve_take unheld valid fits]
    exact .cons (by simp [Assignment.ServedAs, unheld, CacheEntry.asBuffer, fits]) ih

theorem Assignment.ServedAs.window {a b : Assignment} (h : a.ServedAs b) : b.window = a.window := by
  unfold Assignment.ServedAs at h
  split at h
  · rw [h]
  · rw [h.1]

theorem Assignment.ServedAs.byteSize {a b : Assignment} (h : a.ServedAs b) : b.byteSize = a.byteSize := by
  unfold Assignment.ServedAs at h
  split at h
  · rw [h]
  · rw [h.1]

theorem map_of_forall₂ {α β : Type} {r : α → α → Prop} {g : α → β} (same : ∀ a b, r a b → g b = g a) {as bs : List α}
    (h : List.Forall₂ r as bs) : bs.map g = as.map g := by
  induction h with
  | nil => rfl
  | cons head _ ih => rw [List.map_cons, List.map_cons, same _ _ head, ih]

/-- An assignment left with no buffer holds back every one behind it. -/
theorem serve_behind_unserved (as : List Assignment) (cache : List CacheEntry) : ∀ (i : Nat) (a : Assignment),
    (serve as cache).1[i]? = some a → a.buffer = none → ∀ j, i < j → (serve as cache).1[j]? = as[j]? := by
  induction as, cache using serve_induction with
  | nil cache => exact fun _ _ _ _ _ _ => rfl
  | empty a rest unheld => exact serve_empty unheld rest ▸ fun _ _ _ _ _ _ => rfl
  | front a rest e more unheld unfit => exact serve_return unheld unfit rest more ▸ fun _ _ _ _ _ _ => rfl
  | held a rest cache held ih =>
    rw [serve_held held]
    rintro (_ | i) b at_ unheld (_ | j) behind
    · exact absurd behind (by omega)
    · obtain rfl := Option.some.inj at_
      simp [unheld] at held
    · exact absurd behind (by omega)
    · exact ih i b at_ unheld j (by omega)
  | take a rest e more unheld valid fits ih =>
    rw [serve_take unheld valid fits]
    rintro (_ | i) b at_ none (_ | j) behind
    · exact absurd behind (by omega)
    · obtain rfl := Option.some.inj at_
      cases none
    · exact absurd behind (by omega)
    · exact ih i b at_ none j (by omega)

/-- The buffers given out are the entries taken from the front of the cache, each of them valid. -/
theorem serve_taken (as : List Assignment) (cache : List CacheEntry) :
    ∃ taken, cache = taken ++ (serve as cache).2.1 ∧ (∀ e ∈ taken, e.valid = true) ∧
      taken.map CacheEntry.asBuffer =
        (as.zip (serve as cache).1).filterMap (fun p => if p.1.buffer.isNone then p.2.buffer else none) := by
  have given_refl : ∀ as : List Assignment,
      [] = (as.zip as).filterMap (fun p => if p.1.buffer.isNone then p.2.buffer else none) := by
    intro as
    induction as with
    | nil => rfl
    | cons a rest ih =>
      rw [List.zip_cons_cons, List.filterMap_cons_none (by cases a.buffer <;> rfl)]
      exact ih
  induction as, cache using serve_induction with
  | nil cache => exact ⟨[], rfl, by simp, rfl⟩
  | empty a rest unheld => exact ⟨[], by rw [serve_empty unheld]; rfl, by simp, by rw [serve_empty unheld]; exact given_refl _⟩
  | front a rest e more unheld unfit =>
    exact ⟨[], by rw [serve_return unheld unfit]; rfl, by simp, by rw [serve_return unheld unfit]; exact given_refl _⟩
  | held a rest cache held ih =>
    obtain ⟨taken, split, valid, given⟩ := ih
    rw [serve_held held]
    exact ⟨taken, split, valid, by simp [given, Option.isSome_iff_ne_none.mp held]⟩
  | take a rest e more unheld valid fits ih =>
    obtain ⟨taken, split, allValid, given⟩ := ih
    rw [serve_take unheld valid fits]
    exact ⟨e :: taken, congrArg (e :: ·) split, List.forall_mem_cons.mpr ⟨valid, allValid⟩, by simp [given, unheld]⟩

/-- Where serving stops (Table 38). -/
theorem serve_stops (as : List Assignment) (cache : List CacheEntry) :
    ((serve as cache).2.2 = .allServed ↔ ∀ a ∈ (serve as cache).1, a.buffer.isSome = true) ∧
      ((serve as cache).2.2 = .cacheEmpty → (serve as cache).2.1 = []) ∧
      ((serve as cache).2.2 = .returnFront → (serve as cache).2.1.head?.any (fun e => !e.valid ||
        ((serve as cache).1.find? fun a => a.buffer.isNone).any fun a => decide (e.length < a.byteSize)) = true) := by
  induction as, cache using serve_induction with
  | nil cache => simp [serve]
  | empty a rest unheld => simp [serve_empty unheld, unheld]
  | front a rest e more unheld unfit => simp [serve_return unheld unfit, unheld, unfit]
  | held a rest cache held ih =>
    rw [serve_held held]
    refine ⟨ih.1.trans (by simp [held]), ih.2.1, fun h => ?_⟩
    rw [List.find?_cons_of_neg (by simpa using Option.isSome_iff_ne_none.mp held)]
    exact ih.2.2 h
  | take a rest e more unheld valid fits ih =>
    rw [serve_take unheld valid fits]
    refine ⟨ih.1.trans (by simp), ih.2.1, fun h => ?_⟩
    rw [List.find?_cons_of_neg (by simp)]
    exact ih.2.2 h

/-- Settles O23, by induction along Table 38 for each part. -/
theorem buffersAreServedInOrder : Obligations.BuffersAreServedInOrder := by
  unfold Obligations.BuffersAreServedInOrder
  rintro as cache r rfl taken rfl
  obtain ⟨given, split, valid, buffers⟩ := serve_taken as cache
  obtain ⟨all, empty, front⟩ := serve_stops as cache
  have each := serve_each as cache
  have same : cache.take (cache.length - (serve as cache).2.1.length) = given := by
    have length := congrArg List.length split
    rw [List.length_append] at length
    have count : cache.length - (serve as cache).2.1.length = given.length := by omega
    rw [count]
    exact (congrArg _ split).trans (List.take_left' rfl)
  rw [same]
  exact ⟨split, map_of_forall₂ (fun _ _ h => h.window) each,
    map_of_forall₂ (fun _ _ h => h.byteSize) each, buffers, valid, serve_behind_unserved as cache,
    fun p mem => List.forall₂_zip each mem, all, empty, front⟩

/-! ## The segment order (R67) -/

section Order

variable {order : List Nat}

theorem isOrder_iff (order : List Nat) :
    isOrder order = true ↔ order.length = 16 ∧ (∀ v ∈ order, v < 16) ∧ order.Nodup := by simp [isOrder]

/-- A segment order holds each of its sixteen places. -/
theorem mem_order (h : isOrder order = true) {v : Nat} (below : v < 16) : v ∈ order := by
  obtain ⟨length, values, nodup⟩ := (isOrder_iff order).mp h
  have perm : order.Perm (List.range 16) :=
    (nodup.subperm fun v mem => List.mem_range.mpr (values v mem)).perm_of_length_le (by simp [length])
  exact perm.mem_iff.mpr (List.mem_range.mpr below)

theorem idxOf_order_lt (h : isOrder order = true) {v : Nat} (below : v < 16) : order.idxOf v < 16 :=
  ((isOrder_iff order).mp h).1 ▸ List.idxOf_lt_length_of_mem (mem_order h below)

/-- The place in arrival order of the pixel that a raster column receives. -/
def arrivalOf (order : List Nat) (column : Nat) : Nat := 16 * (column / 16) + order.idxOf (column % 16)

theorem assemble_eq (order : List Nat) (columns : Nat) (pixels : List Nat) :
    assemble order columns pixels = (List.range columns).map fun c => pixels.getD (arrivalOf order c) 0 := rfl

theorem arrivalOf_lt (h : isOrder order = true) {columns c : Nat} (whole : columns % 16 = 0) (below : c < columns) :
    arrivalOf order c < columns := by
  have := idxOf_order_lt h (Nat.mod_lt c (by decide : 0 < 16))
  unfold arrivalOf
  omega

theorem arrivalOf_injective (h : isOrder order = true) : Function.Injective (arrivalOf order) := by
  intro c d same
  have placeC := idxOf_order_lt h (Nat.mod_lt c (by decide : 0 < 16))
  have placeD := idxOf_order_lt h (Nat.mod_lt d (by decide : 0 < 16))
  unfold arrivalOf at same
  have place : order.idxOf (c % 16) = order.idxOf (d % 16) := by omega
  have := (List.idxOf_inj (mem_order h (Nat.mod_lt c (by decide)))).mp place
  omega

/-- The pixel at position `p` of segment `k` goes to the column that the order names. -/
theorem arrivalOf_placed (h : isOrder order = true) (k : Nat) {p : Nat} (below : p < 16) :
    arrivalOf order (16 * k + order.getD p 0) = 16 * k + p := by
  obtain ⟨length, values, nodup⟩ := (isOrder_iff order).mp h
  have inside : p < order.length := by omega
  have value := values _ (List.getElem_mem inside)
  rw [List.getD_eq_getElem _ _ inside, arrivalOf, Nat.mul_add_mod, Nat.mod_eq_of_lt value, nodup.idxOf_getElem]
  omega

/-- The arrival places of the columns of a line are those of its pixels, each once. -/
theorem arrivals_perm (h : isOrder order = true) {columns : Nat} (whole : columns % 16 = 0) :
    ((List.range columns).map (arrivalOf order)).Perm (List.range columns) := by
  refine (List.Nodup.subperm (List.nodup_range.map (arrivalOf_injective h)) fun p mem => ?_).perm_of_length_le (by simp)
  obtain ⟨c, below, rfl⟩ := List.mem_map.mp mem
  exact List.mem_range.mpr (arrivalOf_lt h whole (List.mem_range.mp below))

end Order

/-- Settles O53: the columns receive the pixels of a permutation of the arrival places (`arrivals_perm`). -/
theorem segmentOrderPlacesEachPixel : Obligations.SegmentOrderPlacesEachPixel := by
  unfold Obligations.SegmentOrderPlacesEachPixel
  rintro order columns pixels h whole rfl
  refine ⟨by simp [assemble_eq], fun k p inside below => ?_, ?_⟩
  · obtain ⟨length, values, -⟩ := (isOrder_iff order).mp h
    have value : order.getD p 0 < 16 := by
      rw [List.getD_eq_getElem _ _ (by omega)]
      exact values _ (List.getElem_mem _)
    rw [assemble_eq, List.getElem?_map, List.getElem?_range (by omega), Option.map_some, arrivalOf_placed h k below,
      List.getD_eq_getElem _ _ inside, List.getElem?_eq_getElem inside]
  · have inOrder : (List.range pixels.length).map (fun p => pixels.getD p 0) = pixels :=
      List.ext_getElem (by simp) fun i _ inside => by
        rw [List.getElem_map, List.getElem_range, List.getD_eq_getElem _ _ inside]
    have perm := (arrivals_perm h whole).map fun p => pixels.getD p 0
    rw [List.map_map, inOrder] at perm
    exact perm

/-! ## Slices (R65, R66, R70, R71) -/

theorem storePixel_length (w : WindowDef) (depth pixel : Nat) :
    (w.storePixel depth pixel).length = w.bytesPerPixel depth := by
  unfold WindowDef.storePixel WindowDef.bytesPerPixel
  by_cases eight : depth = 8
  · simp [eight]
  · cases w.format <;> simp [eight]

theorem sliceOf_size (c : CtxId) (position depth line : Nat) (raster : List Nat) {w : WindowDef}
    (positive : 0 < w.skipX.toNat) (multiple : groupSize w.mosaic * w.skipX.toNat ∣ w.width.toNat) :
    (sliceOf c position depth line raster w).size = w.outWidth * w.bytesPerPixel depth := by
  simp [Slice.size, sliceOf, List.length_flatMap, storePixel_length, keptColumns_eq positive multiple, Function.comp_def]

theorem flatMap_single {α β : Type} (f : α → β) (l : List α) : (l.flatMap fun x => [f x]) = l.map f :=
  List.flatMap_pure_eq_map f l

theorem flatMap_pair {α β : Type} (f g : α → β) (l : List α) (i : Nat) :
    (l.flatMap fun x => [f x, g x])[2 * i]? = l[i]?.map f ∧
      (l.flatMap fun x => [f x, g x])[2 * i + 1]? = l[i]?.map g := by
  induction l generalizing i with
  | nil => exact ⟨rfl, rfl⟩
  | cons x rest ih =>
    cases i with
    | zero => exact ⟨rfl, rfl⟩
    | succ i => exact ih i

/-- The bytes of a slice are the kept pixels in column order as Table 25 stores them. -/
theorem sliceOf_data (c : CtxId) (position depth line : Nat) (raster : List Nat) (w : WindowDef) {i column : Nat}
    (kept : w.keptColumns[i]? = some column) :
    (depth = 8 → (sliceOf c position depth line raster w).data[i]? = some (BitVec.ofNat 8 (raster.getD column 0))) ∧
      (depth ≠ 8 → w.format = .top8 → (sliceOf c position depth line raster w).data[i]? =
        some (BitVec.ofNat 8 (raster.getD column 0 / 2 ^ (depth - 8)))) ∧
      (depth ≠ 8 → w.format = .native →
        (sliceOf c position depth line raster w).data[2 * i]? = some (BitVec.ofNat 8 (raster.getD column 0)) ∧
          (sliceOf c position depth line raster w).data[2 * i + 1]? =
            some (BitVec.ofNat 8 (raster.getD column 0 / 256))) := by
  refine ⟨fun eight => ?_, fun wide top => ?_, fun wide native => ?_⟩
  · simp [sliceOf, WindowDef.storePixel, eight, leBytes, flatMap_single, kept]
  · simp [sliceOf, WindowDef.storePixel, wide, top, leBytes, flatMap_single, kept]
  · obtain ⟨low, high⟩ := flatMap_pair (fun column => BitVec.ofNat 8 (raster.getD column 0))
      (fun column => BitVec.ofNat 8 (raster.getD column 0 / 256)) w.keptColumns i
    rw [kept] at low high
    simp only [sliceOf, WindowDef.storePixel, wide, native, leBytes, if_false]
    exact ⟨low, high⟩

/-- The row of a kept line stands inside the output image. -/
theorem slice_inside (w : WindowDef) (depth : Nat) {row : Nat} (inside : row < w.outHeight) :
    row * (w.outWidth * w.bytesPerPixel depth) + w.outWidth * w.bytesPerPixel depth ≤ w.byteSize depth := by
  calc row * (w.outWidth * w.bytesPerPixel depth) + w.outWidth * w.bytesPerPixel depth
      = (row + 1) * (w.outWidth * w.bytesPerPixel depth) := by ring
    _ ≤ w.outHeight * (w.outWidth * w.bytesPerPixel depth) := Nat.mul_le_mul_right _ inside
    _ = w.byteSize depth := by unfold WindowDef.byteSize; ring

theorem byteSize_of_accepted {u : Setup} {windows : List WindowEntry} {n : Nat} {w : WindowDef}
    (accepted : firstFailed (windowChecks u windows n w) = none) : w.byteSize u.depth ≤ 16777216 := by
  simp only [windowChecks, firstFailed_cons_eq_none] at accepted
  exact accepted.2.2.2.2.2.2.2.1

/-- Whether the window at a place of the list keeps a line. -/
def keptAt (windows : List WindowEntry) (line : Nat) (list : List Nat) (place : Nat) : Bool :=
  (windowAt windows (list.getD place 0)).window.any (·.keepsLine line)

theorem keptAt_succ (windows : List WindowEntry) (line n : Nat) (rest : List Nat) (place : Nat) :
    keptAt windows line (n :: rest) (place + 1) = keptAt windows line rest place := rfl

/-- The slices of a line stand for the windows that keep it, in list order. -/
theorem cutLine_positions (windows : List WindowEntry) (c : CtxId) (depth line : Nat) (raster : List Nat) (first : Nat)
    (list : List Nat) :
    (cutLine windows c depth line raster first list).map Slice.position =
      ((List.range list.length).filter (keptAt windows line list)).map (first + ·) := by
  induction list generalizing first with
  | nil => rfl
  | cons n rest ih =>
    have later : (((List.range rest.length).map Nat.succ).filter (keptAt windows line (n :: rest))).map (first + ·) =
        (cutLine windows c depth line raster (first + 1) rest).map Slice.position := by
      rw [ih, List.filter_map, List.map_map]
      exact List.map_congr_left fun p _ => by simp [Function.comp]; omega
    rw [List.length_cons, List.range_succ_eq_map, List.filter_cons, cutLine]
    cases window : (windowAt windows n).window with
    | none => simp [keptAt, window, ← later]
    | some w => by_cases keeps : w.keepsLine line = true <;> simp [keptAt, window, keeps, ← later, sliceOf]

theorem cutLine_slices (windows : List WindowEntry) (c : CtxId) (depth line : Nat) (raster : List Nat) (first : Nat)
    (list : List Nat) : ∀ sl ∈ cutLine windows c depth line raster first list, first ≤ sl.position ∧
      ∃ w, (windowAt windows (list.getD (sl.position - first) 0)).window = some w ∧
        sl = sliceOf c sl.position depth line raster w := by
  induction list generalizing first with
  | nil => simp [cutLine]
  | cons n rest ih =>
    have later : ∀ sl ∈ cutLine windows c depth line raster (first + 1) rest, first ≤ sl.position ∧
        ∃ w, (windowAt windows ((n :: rest).getD (sl.position - first) 0)).window = some w ∧
          sl = sliceOf c sl.position depth line raster w := by
      intro sl mem
      obtain ⟨behind, w, window, same⟩ := ih (first + 1) sl mem
      refine ⟨by omega, w, ?_, same⟩
      rwa [show sl.position - first = sl.position - (first + 1) + 1 by omega, List.getD_cons_succ]
    rw [cutLine]
    cases window : (windowAt windows n).window with
    | none => exact later
    | some w =>
      by_cases keeps : w.keepsLine line = true
      · simp only [keeps, if_true, List.forall_mem_cons]
        exact ⟨⟨Nat.le_refl _, w, by simpa [sliceOf] using window, rfl⟩, later⟩
      · simpa [keeps] using later

/-- Settles O54: the rows of an accepted window by `slice_inside`, the slices of a line by `cutLine_positions` and
`cutLine_slices`. -/
theorem slicesFitTheirWindow : Obligations.SlicesFitTheirWindow := by
  unfold Obligations.SlicesFitTheirWindow
  refine ⟨?_, fun windows c depth line raster list => ⟨?_, fun sl mem => ?_⟩⟩
  · rintro u windows n w c position line raster sl accepted keeps rfl
    obtain ⟨⟨positiveX, multipleX⟩, positiveY, multipleY⟩ := skips_of_accepted accepted
    obtain ⟨-, inside, kept⟩ := (keepsLine_iff w line).mp keeps
    have size := sliceOf_size c position u.depth line raster positiveX multipleX
    have offset : (sliceOf c position u.depth line raster w).offset =
        w.outputRow line * (sliceOf c position u.depth line raster w).size := by
      rw [size, ← Nat.mul_assoc]
      rfl
    refine ⟨rfl, rfl, size, offset, ?_, byteSize_of_accepted accepted, fun i column kept => sliceOf_data _ _ _ _ _ _ kept⟩
    rw [offset, size]
    exact slice_inside w u.depth (outputOffset_lt positiveY multipleY kept inside)
  · rw [cutLine_positions]
    simp only [Nat.zero_add, List.map_id']
    rfl
  · obtain ⟨-, w, window, same⟩ := cutLine_slices windows c depth line raster 0 list sl mem
    exact ⟨w, window, same⟩

end Sys2Proof.Machine
end

section
/-! PROOFS of O21: a capture record read joins the Capture Queue. -/

set_option Elab.async false

namespace Sys2Proof.Machine

open Sys2Proof

/-! ## The capture request checks are Table 8 (R5) -/

theorem firstFailed_nil {α : Type} : firstFailed ([] : List (Bool × α)) = none := rfl

theorem firstFailed_append {α : Type} (first behind : List (Bool × α)) :
    firstFailed (first ++ behind) = (firstFailed first).or (firstFailed behind) := by
  induction first with
  | nil => rfl
  | cons check rest ih =>
    obtain ⟨holds, report⟩ := check
    rw [List.cons_append, firstFailed_cons_bool, firstFailed_cons_bool, ih]
    cases holds <;> rfl

/-- Check 3 of Table 8 over a window list of which the numbers `seen` stand before it. -/
def listChecksBehind (windows : List WindowEntry) (seen list : List Nat) : List (Bool × Detail) :=
  (List.range list.length).flatMap fun i =>
    [ (decide (list.getD i 0 < 16) && (windowAt windows (list.getD i 0)).window.isSome, .windowUndefined),
      (decide (list.getD i 0 ∉ seen ∧ list.getD i 0 ∉ list.take i), .windowRepeated) ]

theorem listChecksBehind_nil (windows : List WindowEntry) (list : List Nat) :
    listChecksBehind windows [] list = listChecks windows list := by
  simp [listChecksBehind, listChecks]

theorem listChecksBehind_cons (windows : List WindowEntry) (seen : List Nat) (n : Nat) (rest : List Nat) :
    listChecksBehind windows seen (n :: rest) =
      (decide (n < 16) && (windowAt windows n).window.isSome, .windowUndefined) ::
        (decide (n ∉ seen), .windowRepeated) :: listChecksBehind windows (n :: seen) rest := by
  have places : ∀ (x : Nat) (before : List Nat), (x ∉ seen ∧ x ∉ n :: before) ↔ (x ∉ n :: seen ∧ x ∉ before) := by
    intro x before
    simp only [List.mem_cons]
    tauto
  simp only [listChecksBehind, List.length_cons, List.range_succ_eq_map, List.flatMap_cons, List.flatMap_map,
    List.getD_cons_succ, List.take_succ_cons, places, List.getD_cons_zero, List.take_zero, List.not_mem_nil,
    not_false_eq_true, and_true, List.cons_append, List.nil_append]

/-- Check 3 of Table 8, in list order. -/
theorem checkListed_eq (windows : List WindowEntry) (seen list : List Nat) :
    checkListed windows seen list = firstFailed (listChecksBehind windows seen list) := by
  induction list generalizing seen with
  | nil => rfl
  | cons n rest ih =>
    rw [listChecksBehind_cons, firstFailed_cons_bool, firstFailed_cons, checkListed]
    by_cases defined : 16 ≤ n ∨ (windowAt windows n).window = none
    · have undefined : (!(decide (n < 16) && (windowAt windows n).window.isSome)) = true := by
        rcases defined with above | none
        · simp [Nat.not_lt.mpr above]
        · simp [none]
      rw [if_pos defined, if_pos undefined]
    · obtain ⟨below, window⟩ := not_or.mp defined
      have passes : ¬ (!(decide (n < 16) && (windowAt windows n).window.isSome)) = true := by
        simp [window, Nat.not_le.mp below]
      rw [if_neg defined, if_neg passes]
      by_cases fresh : n ∈ seen
      · rw [if_pos fresh, if_pos (not_not.mpr fresh)]
      · rw [if_neg fresh, if_neg (not_not.mpr fresh), ih]

theorem checkListed_defined {windows : List WindowEntry} {seen list : List Nat} (passes : checkListed windows seen list = none) :
    ∀ n ∈ list, ∃ w, (windowAt windows n).window = some w := by
  induction list generalizing seen with
  | nil => simp
  | cons n rest ih =>
    rw [checkListed] at passes
    split at passes
    · cases passes
    next defined =>
      split at passes
      · cases passes
      · exact List.forall_mem_cons.mpr ⟨Option.ne_none_iff_exists'.mp (not_or.mp defined).2, ih passes⟩

/-- Check 4 of Table 8 over a list whose windows are defined. -/
theorem listedInside_eq (u : Setup) {windows : List WindowEntry} {list : List Nat}
    (defined : ∀ n ∈ list, ∃ w, (windowAt windows n).window = some w) : listedInside u windows list =
      list.all fun n => (windowAt windows n).window.all fun w => w.inside u.columns u.lines := by
  rw [Bool.eq_iff_iff, listedInside, List.all_eq_true, List.all_eq_true]
  refine forall₂_congr fun n mem => ?_
  obtain ⟨w, window⟩ := defined n mem
  rw [window]
  rfl

/-- The start source codes (Table 75). -/
theorem parseSource_cases (code : Nat) :
    (parseSource code = none ∧ ¬ code ≤ 3) ∨ ∃ source, parseSource code = some source ∧ code ≤ 3 ∧
      (source = .interval ↔ code = 3) ∧ (source = .level ↔ code = 2) := by
  rcases code with _ | _ | _ | _ | code
  case succ.succ.succ.succ => exact .inl ⟨rfl, by omega⟩
  all_goals exact .inr ⟨_, rfl, by omega, by simp, by simp⟩

theorem checkTimes_firstFailed (r : CaptureRequest) :
    checkTimes r = firstFailed
      [ (decide (10 ≤ r.exposure ∧ r.exposure ≤ 10000000), .exposureTime),
        (decide (r.source = .interval → 1000 ≤ r.interval ∧ r.interval ≤ 60000000), .interval),
        (decide (r.strobe = true → r.lead ≤ 5000), .strobeLead),
        (decide (r.source = .level → r.discard = true), .latchLevel),
        (decide (r.timeout ≤ 60000), .triggerTimeout) ] := by
  simp only [checkTimes, firstFailed_cons, firstFailed_nil, Bool.not_eq_true', decide_eq_false_iff_not,
    Classical.not_imp, Nat.not_le, Bool.not_eq_true]

/-- Checks 7 to 11 of Table 8. -/
theorem checkTimes_eq {source : StartSource} {data : List Byte} (interval : source = .interval ↔ field data 14 1 = 3)
    (level : source = .level ↔ field data 14 1 = 2) :
    checkTimes (parseRequest source data) = firstFailed
      [ (decide (10 ≤ field data 16 4 ∧ field data 16 4 ≤ 10000000), .exposureTime),
        (decide (field data 14 1 = 3 → 1000 ≤ field data 20 4 ∧ field data 20 4 ≤ 60000000), .interval),
        (decide (fieldBit data 15 1 = true → field data 24 2 ≤ 5000), .strobeLead),
        (decide (field data 14 1 = 2 → fieldBit data 15 3 = true), .latchLevel),
        (decide (field data 26 2 ≤ 60000), .triggerTimeout) ] := by
  have intervalSource : (parseRequest source data).source = .interval ↔ field data 14 1 = 3 := interval
  have levelSource : (parseRequest source data).source = .level ↔ field data 14 1 = 2 := level
  rw [checkTimes_firstFailed, decide_eq_decide.mpr (imp_congr_left intervalSource),
    decide_eq_decide.mpr (imp_congr_left levelSource)]
  rfl

/-- The model's checks of a capture record are those of Table 8, in its order (R5). -/
theorem checkCapture_eq (u : Setup) (windows : List WindowEntry) (data : List Byte) :
    checkCapture u windows data = match firstFailed (captureChecks u windows data) with
      | some d => .error d
      | none => .ok (parseRequest ((parseSource (field data 14 1)).getD .software) data) := by
  rw [captureChecks, firstFailed_append, firstFailed_append, ← listChecksBehind_nil, ← checkListed_eq, firstFailed_cons,
    firstFailed_cons]
  unfold checkCapture
  by_cases kind : field data 0 1 = 1
  swap
  · simp [kind]
  by_cases count : 1 ≤ field data 1 1 ∧ field data 1 1 ≤ 6
  swap
  · simp [kind, count]
  simp only [kind, count, ne_eq, not_true_eq_false, if_false, decide_true, Bool.not_true, Bool.false_eq_true, and_self,
    firstFailed_nil, Option.none_or]
  cases listed : checkListed windows [] (parseWindowList data) with
  | some d => rfl
  | none =>
    simp only [Option.none_or]
    rw [listedInside_eq u (checkListed_defined listed), firstFailed_cons_bool, firstFailed_cons, firstFailed_cons]
    generalize ((parseWindowList data).all fun n => (windowAt windows n).window.all fun w => w.inside u.columns u.lines) =
      inside
    cases inside
    · rfl
    by_cases frames : 1 ≤ field data 12 2 ∧ field data 12 2 ≤ 1024
    swap
    · simp [frames]
    rcases parseSource_cases (field data 14 1) with ⟨unknown, code⟩ | ⟨source, known, code, interval, level⟩
    · simp [frames, unknown, code]
    · simp only [frames, known, code, checkTimes_eq interval level]
      simp only [not_true_eq_false, if_false, decide_true, Bool.not_true, Bool.false_eq_true, and_self, Option.getD_some] <;>
        rfl

/-- The entry of a capture record is that of Table 8 (R4, R5). -/
theorem entryOf_eq (u : Setup) (data : List Byte) (s : State) : s.entryOf u data = placedEntry u data s := by
  unfold State.entryOf placedEntry
  cases s.sched.flushMark with
  | some mark => rfl
  | none =>
    rw [checkCapture_eq]
    cases firstFailed (captureChecks u s.cutter.windows data) <;> rfl

/-! ## The record joins the queue (R4, R8, R11) -/

/-- The head of the Capture Ring moves on and the Progress Block is written (R153, R156). -/
theorem advanceRing_capture {u : Setup} {s : State} (setup : s.ring.setup = some u) :
    s.advanceRing .capture = { s with
      ring := { s.ring with capRead := none, capHead := (s.ring.capHead + 1) % u.capture.size }
      link := { s.link with issued := s.link.issued ++
        [progressWrite u s.ring.ctlHead ((s.ring.capHead + 1) % u.capture.size) s.ring.bufHead] } } := by
  simp [State.advanceRing, State.writeProgress, setup, State.issue, progressWrite_eq, State.ringHead, State.ringSize]

/-- What a capture record leaves before the tests of R3 and R11. -/
theorem joinQueue_eq {u : Setup} {s : State} (setup : s.ring.setup = some u) (data : List Byte) :
    s.joinQueue u data = { s with
      ring := { s.ring with capRead := none, capHead := (s.ring.capHead + 1) % u.capture.size }
      link := { s.link with issued := s.link.issued ++
        [progressWrite u s.ring.ctlHead ((s.ring.capHead + 1) % u.capture.size) s.ring.bufHead] }
      sched := { s.sched with
        queue := s.sched.queue ++ [placedEntry u data s], credit := .none
        flushMark := if s.sched.flushMark = some ((s.ring.capHead + 1) % u.capture.size) then none
          else s.sched.flushMark }
      cutter := { s.cutter with
        windows := countRefs (((placedEntry u data s).request.map CaptureRequest.windows).getD []) (· + 1)
          s.cutter.windows } } := by
  unfold State.joinQueue State.clearMark
  rw [advanceRing_capture setup, entryOf_eq]
  by_cases reached : s.sched.flushMark = some ((s.ring.capHead + 1) % u.capture.size)
  · rw [if_pos reached]
    simp only [reached, if_true]
  · rw [if_neg reached]
    simp only [reached, if_false]

/-- The references that a joining entry adds (R8). -/
theorem placedEntry_refs (u : Setup) (data : List Byte) (s : State) (n : Nat) :
    (windowAt (countRefs (((placedEntry u data s).request.map CaptureRequest.windows).getD []) (· + 1) s.cutter.windows)
      n).refs = (windowAt s.cutter.windows n).refs +
        (if (placedEntry u data s).request.any (fun r => decide (n ∈ r.windows)) then 1 else 0) := by
  cases request : (placedEntry u data s).request with
  | none => simp [countRefs]
  | some r =>
    obtain ⟨distinct, inside⟩ := entryOf_windows u data s (entryOf_eq u data s ▸ request)
    rw [Option.map_some, Option.getD_some, countRefs_refs _ distinct fun m mem => (inside m mem).2]
    by_cases named : n ∈ r.windows <;> simp [named]

/-- The head's entry becomes active in a queue that was empty (R11). -/
def State.activated (first : Bool) (s : State) : State := if first then s.becomeActive else s

theorem activated_frame (first : Bool) (s : State) :
    unchangedBut [.stop, .interval, .latch, .missed] s (s.activated first) := .ite (becomeActive_frame s) (.refl _ _)

/-- The Capture Scheduler's credit and read after its test in a state with neither (R3). -/
theorem captureTest_unasked {s : State} (credit : s.sched.credit = .none) (read : s.ring.capRead = none) :
    s.captureTest = { s with sched := { s.sched with credit :=
      if (s.link.part = .running ∨ (s.link.part = .draining ∧ s.sched.flushMark.isSome = true)) ∧
        s.sched.queue.length < 4 ∧ s.ring.capHead ≠ s.ring.capTail.toNat then .asked else .none } } := by
  have guard : (s.captureMayFetch = true ∧ s.sched.queue.length < Config.queueDepth ∧ s.ringWaiting .capture = true) ↔
      ((s.link.part = .running ∨ (s.link.part = .draining ∧ s.sched.flushMark.isSome = true)) ∧
        s.sched.queue.length < 4 ∧ s.ring.capHead ≠ s.ring.capTail.toNat) := by
    have waiting : s.ringWaiting .capture = true ↔ s.ring.capHead ≠ s.ring.capTail.toNat := decide_eq_true_iff
    simp only [State.captureMayFetch, waiting, Config.queueDepth, Bool.or_eq_true,
      Bool.and_eq_true, decide_eq_true_eq]
  unfold State.captureTest
  by_cases gives : s.link.part = .draining ∧ s.sched.flushMark = none
  · rw [if_pos gives, if_pos read, if_neg (by simp [gives.1, gives.2])]
  · rw [if_neg gives, credit]
    by_cases fetches : s.captureMayFetch = true ∧ s.sched.queue.length < Config.queueDepth ∧ s.ringWaiting .capture = true
    · rw [if_pos fetches, if_pos (guard.mp fetches)]
    · rw [if_neg fetches, if_neg (mt guard.mpr fetches), ← credit]

theorem capCredit_frame (credit : CreditState) (s : State) :
    unchangedBut [.capCredit] s { s with sched := { s.sched with credit := credit } } := by
  intro p hp
  cases p <;> first | rfl | exact absurd (by decide) hp

/-- Settles O21: the record joins the queue (`joinQueue_eq`), and the head's entry and R3 follow. -/
theorem captureRecordJoinsTheQueue : Obligations.CaptureRecordJoinsTheQueue := by
  unfold Obligations.CaptureRecordJoinsTheQueue
  rintro u data s reading setup head e rfl rfl
  obtain ⟨read, reading⟩ := Option.isSome_iff_exists.mp reading
  have run : exec (.captureRecordRead data) s =
      .next ((s.joinQueue u data).activated s.sched.queue.isEmpty).captureTest := by
    have empty : (s.advanceRing .capture).clearMark.sched.queue.isEmpty = s.sched.queue.isEmpty := by
      rw [clearMark_queue, show (s.advanceRing .capture).sched.queue = _ from (advanceRing_frame .capture s).get .queue]
    show execCaptureRecordRead data s = _
    simp only [execCaptureRecordRead, reading, setup, State.placeEntry, empty]
    rfl
  have joined := joinQueue_eq setup data
  have joins := joinQueue_frame u data s
  generalize s.joinQueue u data = j at run joined joins
  have frame := activated_frame s.sched.queue.isEmpty j
  have active : s.sched.queue = [] → BecameActive (placedEntry u data s) s (j.activated s.sched.queue.isEmpty) := by
    intro empty
    rw [empty]
    have queue : j.sched.queue = [placedEntry u data s] := by rw [joined, empty]; rfl
    have spec := becomeActive_spec _ [] j queue
    rw [BecameActive, joined] at spec
    rw [joined]
    exact spec
  have idle : s.sched.queue ≠ [] → j.activated s.sched.queue.isEmpty = j := fun some => by
    rw [List.isEmpty_eq_false_iff.mpr some]
    rfl
  generalize j.activated s.sched.queue.isEmpty = k at run frame active idle
  have same : ∀ p : Part, [Part.stop, .interval, .latch, .missed].contains p = false → p.same j k :=
    fun p hp => frame.get p hp
  have credit : k.sched.credit = .none := (same .capCredit rfl).trans (by rw [joined])
  have ring : (k.ring.capHead, k.ring.capRead) = (_, none) := (same .capRing rfl).trans (by rw [joined])
  obtain ⟨head, read⟩ := Prod.mk.inj ring
  rw [captureTest_unasked credit read] at run
  have queue : k.sched.queue = s.sched.queue ++ [placedEntry u data s] := (same .queue rfl).trans (by rw [joined])
  have windows : k.cutter.windows = _ := (same .windows rfl).trans (congrArg (fun j => j.cutter.windows) joined)
  have mark : k.sched.flushMark = _ := (same .flushMark rfl).trans (congrArg (fun j => j.sched.flushMark) joined)
  have part : k.link.part = s.link.part := (same .partState rfl).trans (by rw [joined])
  have tail : k.ring.capTail = s.ring.capTail :=
    (Prod.mk.inj (Prod.mk.inj (same .tails rfl)).2).1.trans (by rw [joined])
  refine ⟨_, run, queue, head, read, (same .issued rfl).trans (by rw [joined]), mark, ?_, ?_, active, fun some => ?_, ?_⟩
  · show k.cutter.windows.length = _ ∧ ∀ n, (windowAt k.cutter.windows n).window = _ ∧ (windowAt k.cutter.windows n).refs = _
    rw [windows]
    exact ⟨countRefs_length .., fun n => ⟨countRefs_window .., placedEntry_refs u data s n⟩⟩
  · show (if _ then _ else _) = _
    rw [part, queue, head, tail, List.length_append]
    rfl
  · rw [idle some]
    exact (joins.widen _).trans ((capCredit_frame _ _).widen _)
  · exact (joins.widen _).trans ((frame.widen _).trans ((capCredit_frame _ _).widen _))

end Sys2Proof.Machine
end

section
/-! PROOFS of O47 and O48: a frame posts, a request ends. -/

set_option Elab.async false

namespace Sys2Proof.Machine

open Sys2Proof

/-! ## What was posted, around other changes -/

/-- What was posted stands behind a change elsewhere. -/
theorem Posts.followed {u : Setup} {bs : List LinkWrite} {cs : List Completion} {s t v : State} {ps : List Part}
    (h : Posts u bs cs s t) (frame : unchangedBut ps t v)
    (apart : ([Part.issued, .slots, .coalescing, .cause].all fun p => !ps.contains p) = true := by decide) :
    Posts u bs cs s v := by
  simp only [List.all_cons, List.all_nil, Bool.and_true, Bool.and_eq_true, Bool.not_eq_true'] at apart
  obtain ⟨issued, slots, coalescing, cause⟩ := apart
  have slots := frame.get .slots slots
  have coalescing := frame.get .coalescing coalescing
  simp only [Part.same, Prod.mk.injEq] at slots coalescing
  unfold Posts State.handed
  rw [show v.link.issued = t.link.issued from frame.get .issued issued,
    show v.cpl.cause = t.cpl.cause from frame.get .cause cause, slots.1, slots.2, coalescing.1, coalescing.2]
  exact h

/-- What is posted behind a change elsewhere is posted from the state before it. -/
theorem Posts.preceded {u : Setup} {bs : List LinkWrite} {cs : List Completion} {s t v : State} {ps : List Part}
    (frame : unchangedBut ps s t) (h : Posts u bs cs t v)
    (apart : ([Part.time, .msi, .mask, .issued, .slots, .coalescing, .cause].all fun p => !ps.contains p) = true := by
      decide) :
    Posts u bs cs s v := by
  simp only [List.all_cons, List.all_nil, Bool.and_true, Bool.and_eq_true, Bool.not_eq_true'] at apart
  obtain ⟨time, msi, mask, issued, slots, coalescing, cause⟩ := apart
  have slots := frame.get .slots slots
  have coalescing := frame.get .coalescing coalescing
  simp only [Part.same, Prod.mk.injEq] at slots coalescing
  have cause : t.cpl.cause = s.cpl.cause := frame.get .cause cause
  have handed : t.handed = s.handed := by
    unfold State.handed
    rw [cause, slots.1, slots.2, coalescing.1, coalescing.2]
  have signals : t.signalsWith = s.signalsWith := by
    funext b
    unfold State.signalsWith
    rw [cause, show t.link.msi = s.link.msi from frame.get .msi msi,
      show t.cpl.mask = s.cpl.mask from frame.get .mask mask]
  unfold Posts at h ⊢
  rwa [show t.link.issued = s.link.issued from frame.get .issued issued, handed, signals,
    show t.now = s.now from frame.get .time time, cause] at h

/-! ## A request ends (R16 to R18) -/

/-- The guard of REQUEST_END is R16. -/
theorem requestEnds_iff (s : State) : s.requestEnds = true ↔ ∃ e, RequestOver e s := by
  unfold State.requestEnds RequestOver
  cases s.sched.queue with
  | nil => simp
  | cons e rest =>
    simp only [List.head?_cons, Option.some.injEq, exists_eq_left']
    unfold Entry.request
    cases e.form with
    | rejected d => simp
    | flushedAtFetch => simp
    | valid r =>
      simp only [Bool.or_eq_true, Bool.and_eq_true, contextsFree_iff, decide_eq_true_eq, Option.isSome_iff_ne_none,
        Option.any_some, reduceCtorEq, false_or, and_assoc, or_assoc]

/-- The REQUEST_END of an entry, by Table 10 (R17). -/
theorem requestReport_eq (e : Entry) (cause : Option EndCause) (pending : Nat) :
    requestReport e cause pending =
      { tag := e.tag
        status := match e.form, e.mark, cause with
          | .rejected _, _, _ => .badRequest
          | _, .flushed, _ => .flushed
          | _, .stopped, _ => .stopped
          | _, .none, some .stopped => .stopped
          | _, .none, some .aborted => .aborted
          | _, .none, some .triggerTimeout => .triggerTimeout
          | _, .none, some .sensorOff => .sensorOff
          | _, .none, some .sensorLost => .sensorLost
          | _, .none, none => .complete
        detail := match e.form with
          | .rejected d => d
          | _ => .none
        begun := e.begun
        good := e.good
        skipped := e.skipped
        missed := min (e.missed + pending) 65535 } := by
  unfold requestReport finalStatus
  cases e.form with
  | rejected d => rfl
  | flushedAtFetch =>
    cases e.mark with
    | none => rcases cause with _ | (_ | _ | _ | _ | _) <;> rfl
    | flushed => rfl
    | stopped => rfl
  | valid r =>
    cases e.mark with
    | none => rcases cause with _ | (_ | _ | _ | _ | _) <;> rfl
    | flushed => rfl
    | stopped => rfl

/-- The head leaves the queue with its REQUEST_END. -/
theorem dequeue_posts {u : Setup} {s : State} (setup : s.ring.setup = some u) (e : Entry) (rest : List Entry) :
    Posts u [] [.requestEnd (requestReport e s.sched.endCause s.seq.missed)] s (s.dequeue e rest) := by
  have frame : unchangedBut [.queue, .missed, .windows] s
      { s with
        sched := { s.sched with queue := rest }
        seq := { s.seq with missed := 0 }
        cutter := { s.cutter with
          windows := countRefs ((e.request.map CaptureRequest.windows).getD []) (· - 1) s.cutter.windows } } := by
    intro p hp
    cases p <;> first | rfl | exact absurd (by decide) hp
  exact .preceded frame (handOver_posts u _ _ setup)

theorem becomeActive_nil {s : State} (empty : s.sched.queue = []) :
    s.becomeActive = { s with sched := { s.sched with stopMode := .none, endCause := none, interval := none } } := by
  unfold State.becomeActive
  dsimp only
  rw [empty]

/-- The references that an ending request takes from its windows (R18). -/
theorem unpinned_refs {e : Entry} {ws : List WindowEntry}
    (form : e.request.all (fun r => decide (r.windows.Nodup ∧ ∀ m ∈ r.windows, m < ws.length)) = true) (n : Nat) :
    (windowAt (countRefs ((e.request.map CaptureRequest.windows).getD []) (· - 1) ws) n).refs =
      (windowAt ws n).refs - (if e.request.any (fun r => decide (n ∈ r.windows)) then 1 else 0) := by
  cases request : e.request with
  | none => simp [countRefs]
  | some r =>
    rw [request, Option.all_some, decide_eq_true_eq] at form
    rw [Option.map_some, Option.getD_some, countRefs_refs _ form.1 form.2]
    by_cases named : n ∈ r.windows <;> simp [named]

/-- The test of R3 reads nothing that another state with the same parts does not have. -/
theorem CaptureTested.of_unchanged {u : Setup} {s v t : State} {ps : List Part} (frame : unchangedBut ps s v)
    (h : CaptureTested u v t)
    (apart : ([Part.time, .tails, .capCredit, .capRing].all fun p => !ps.contains p) = true := by decide) :
    CaptureTested u s t := by
  simp only [List.all_cons, List.all_nil, Bool.and_true, Bool.and_eq_true, Bool.not_eq_true'] at apart
  obtain ⟨time, tails, credit, ring⟩ := apart
  have tails := frame.get .tails tails
  have ring := frame.get .capRing ring
  simp only [Part.same, Prod.mk.injEq] at tails ring
  unfold CaptureTested readAt readFrom at h ⊢
  rwa [ring.1, ring.2, tails.2.1, show v.sched.credit = s.sched.credit from frame.get .capCredit credit,
    show v.now = s.now from frame.get .time time] at h

theorem BecameActive.followed {e : Entry} {s t v : State} {ps : List Part} (h : BecameActive e s t)
    (frame : unchangedBut ps t v)
    (apart : ([Part.stop, .interval, .latch, .missed].all fun p => !ps.contains p) = true := by decide) :
    BecameActive e s v := by
  simp only [List.all_cons, List.all_nil, Bool.and_true, Bool.and_eq_true, Bool.not_eq_true'] at apart
  obtain ⟨stop, interval, latch, missed⟩ := apart
  have stop := frame.get .stop stop
  simp only [Part.same, Prod.mk.injEq] at stop
  unfold BecameActive
  rw [stop.1, stop.2, show v.sched.interval = t.sched.interval from frame.get .interval interval,
    show v.seq.latch = t.seq.latch from frame.get .latch latch,
    show v.seq.missed = t.seq.missed from frame.get .missed missed]
  exact h

/-- Settles O48: the head leaves the queue (`dequeue`), the next entry becomes active, and R3 is tested. -/
theorem requestsEnd : Obligations.RequestsEnd := by
  unfold Obligations.RequestsEnd
  refine fun s => ⟨?ends, fun never => ?goesOn⟩
  case goesOn =>
    have goesOn : ¬ s.requestEnds = true := fun ends => (requestEnds_iff s).mp ends |>.elim never
    exact congrArg Host.Outcome.next (if_neg goesOn)
  rintro u e setup ended _ rfl
  obtain ⟨rest, queue⟩ : ∃ rest, s.sched.queue = e :: rest := List.head?_eq_some_iff.mp ended.1
  have run : exec .requestEnd s = .next (s.dequeue e rest).becomeActive.captureTest := by
    show execRequestEnd s = _
    simp only [execRequestEnd, if_pos ((requestEnds_iff s).mpr ⟨e, ended⟩), queue]
    rfl
  have posts := dequeue_posts setup e rest
  have left := dequeue_queue e rest s
  have windows := dequeue_windows e rest s
  have frame := dequeue_frame e rest s
  have missed : (s.dequeue e rest).seq.missed = 0 := (handOver_frame _ _).get .missed
  rw [queue, List.tail_cons]
  generalize s.dequeue e rest = d at run posts left windows frame missed
  have active := becomeActive_frame d
  have tests := captureTest_frame d.becomeActive
  have behind : unchangedBut [.stop, .interval, .latch, .missed, .capCredit, .capRing] d d.becomeActive.captureTest :=
    (active.widen _).trans (tests.widen _)
  have setup' : d.becomeActive.ring.setup = some u := (active.get .setup).trans ((frame.get .setup).trans setup)
  refine ⟨_, run, requestReport_eq e _ _ ▸ posts.followed behind, (behind.get .queue).trans left, ?empty, ?active, ?defs,
    ?refs, ?tested, ?frame⟩
  case empty =>
    rintro rfl
    have stop := tests.get .stop
    simp only [Part.same, Prod.mk.injEq] at stop
    rw [stop.1, stop.2, show d.becomeActive.captureTest.sched.interval = _ from tests.get .interval,
      show d.becomeActive.captureTest.seq.missed = _ from tests.get .missed,
      show d.becomeActive.captureTest.seq.latch = _ from tests.get .latch, becomeActive_nil left]
    exact ⟨rfl, rfl, rfl, missed, frame.get .latch⟩
  case active =>
    rintro n more rfl
    have spec := (becomeActive_spec n more d left).followed tests
    unfold BecameActive at spec ⊢
    rwa [show d.now = s.now from frame.get .time] at spec
  case defs =>
    intro n
    rw [show d.becomeActive.captureTest.cutter.windows = _ from behind.get .windows, windows, countRefs_window]
  case refs =>
    intro n form
    rw [show d.becomeActive.captureTest.cutter.windows = _ from behind.get .windows, windows, unpinned_refs form]
  case tested =>
    exact (captureTest_tested u _ setup').of_unchanged ((frame.widen _).trans (active.widen _) :
      unchangedBut ([.queue, .stop, .interval, .latch, .missed, .windows] ++ postParts) s d.becomeActive)
  case frame => exact (frame.widen _).trans (behind.widen _)

/-! ## A frame posts (R46, R105) -/

theorem sliceRemains_iff (c : CtxId) (s : State) :
    s.sliceRemains c = false ↔ (∀ sl ∈ s.store.slices, sl.ctx ≠ c) ∧ ∀ sl ∈ s.cutter.inHand, sl.ctx ≠ c := by
  simp [State.sliceRemains]

/-- The frame to post is what R46 allows. -/
theorem frameToPost_iff (c : CtxId) (e : Entry) (f : Frame) (s : State) :
    s.frameToPost c = some (e, f) ↔ MayPost c e f s := by
  unfold State.frameToPost MayPost
  cases s.sched.queue with
  | nil => simp
  | cons d rest =>
    cases s.ctx c with
    | none => simp
    | some g =>
      simp only [List.head?_cons, Option.some.injEq]
      constructor
      · intro h
        split at h
        · rename_i may
          simp only [Option.some.injEq, Prod.mk.injEq] at h
          obtain ⟨rfl, rfl⟩ := h
          obtain ⟨closing, remains, held, index⟩ := may
          exact ⟨rfl, rfl, closing, held, index.symm, (sliceRemains_iff c s).mp remains⟩
        · cases h
      · rintro ⟨rfl, rfl, closing, held, index, remains⟩
        rw [if_pos ⟨closing, (sliceRemains_iff c s).mpr remains, held, index.symm⟩]

/-- The result status of an assignment, by Table 41 (R105). -/
theorem Assignment.fix_eq (a : Assignment) :
    a.fix = { a with
      result := some (match a.buffer with
        | none => .noBuffer
        | some _ => if a.written = a.byteSize then .complete else if 0 < a.written then .partialRows else .empty) } := by
  unfold Assignment.fix Assignment.fixed
  cases a.buffer <;> simp

/-- The FRAME completion of a frame (R46). -/
theorem frameReport_eq (e : Entry) (stray : Nat) {f : Frame} {o : FrameOutcome} (outcome : f.outcome = some o) :
    frameReport e stray f =
      { tag := e.tag, index := f.index, outcome := o, flags := f.flags
        assignments := f.assignments.map fun a => { a with
          result := some (match a.buffer with
            | none => .noBuffer
            | some _ => if a.written = a.byteSize then .complete
              else if 0 < a.written then .partialRows else .empty) }
        expStart := f.expStart, actual := f.actual, generation := f.generation, sensorFrame := f.sensorFrame
        badLines := f.badLines, missingLines := f.missingLines, missed := f.missed, stray := stray } := by
  unfold frameReport
  rw [outcome, List.map_congr_left fun a _ => a.fix_eq]
  rfl

/-- The counts of a request whose frame has posted (R14). -/
theorem Entry.countFrame_eq (o : FrameOutcome) (e : Entry) :
    e.countFrame (some o) = { e with
      ended := e.ended + 1
      good := e.good + (if o = .good then 1 else 0)
      skipped := e.skipped + (if o = .skipped then 1 else 0) } := by
  cases o <;> rfl

/-- What the posting of a frame leaves before the events that follow it. -/
def State.framePosted (c : CtxId) (queue : List Entry) (s : State) : State :=
  { s.setCtx c none with recv := { s.recv with stray := 0 }, sched := { s.sched with queue := queue } }

theorem framePosted_frame (c : CtxId) (queue : List Entry) (s : State) :
    unchangedBut [.contexts, .stray, .queue] s (s.framePosted c queue) := by
  intro p hp
  cases c <;> cases p <;> first | rfl | exact absurd (by decide) hp

theorem framePosted_ctx_other (c : CtxId) (queue : List Entry) (s : State) :
    (s.framePosted c queue).ctx (other c) = s.ctx (other c) := by
  cases c <;> rfl

/-- The slots that a posting frame held are reserved no more (R164). -/
theorem framePosted_reserved {c : CtxId} {f : Frame} {s : State} (ctx : s.ctx c = some f) (held : f.creditHeld = true)
    {queue : List Entry} (length : queue.length = s.sched.queue.length) :
    (s.framePosted c queue).reserved + f.slots = s.reserved := by
  have frames := heldByFrames_setCtx s c none
  rw [ctx] at frames
  simp only [heldSlots, held, if_true] at frames
  have same : (s.framePosted c queue).heldByFrames = (s.setCtx c none).heldByFrames := rfl
  have sensor : (s.framePosted c queue).sensor = s.sensor := setCtx_sensor ..
  have engine : (s.framePosted c queue).engine = s.engine := setCtx_engine ..
  rw [reserved_eq, reserved_eq, same, sensor, engine]
  show queue.length + s.sched.credit.slots + _ + _ + _ + _ = _
  omega

@[simp] theorem tidyInterval_reserved (s : State) : s.tidyInterval.reserved = s.reserved := by
  unfold State.tidyInterval
  split <;> rfl

@[simp] theorem tidyInterval_queue (s : State) : s.tidyInterval.sched.queue = s.sched.queue := by
  unfold State.tidyInterval
  split <;> rfl

/-- Settles O47. -/
theorem framesArePosted : Obligations.FramesArePosted := by
  unfold Obligations.FramesArePosted
  refine fun c s quiet => ⟨?posts, fun never => ?waits⟩
  case waits =>
    have none : s.frameToPost c = none := Option.eq_none_iff_forall_ne_some.mpr fun p h =>
      never p.1 p.2 ((frameToPost_iff c p.1 p.2 s).mp h)
    simp only [exec, execFramePost, none]
  rintro u e f setup may o outcome
  obtain ⟨rest, queue⟩ : ∃ rest, s.sched.queue = e :: rest := List.head?_eq_some_iff.mp may.1
  obtain ⟨-, ctx, -, held, -⟩ := id may
  have posts := handOver_posts u (.frame (frameReport e s.recv.stray f)) s setup
  have frame := handOver_frame (.frame (frameReport e s.recv.stray f)) s
  have run : exec (.framePost c) s = .next ((s.handOver (.frame (frameReport e s.recv.stray f))).framePosted c
      (e.countFrame f.outcome :: rest)).follow := by
    show execFramePost c s = _
    simp only [execFramePost, (frameToPost_iff c e f s).mpr may, State.updHead, setCtx_sched, (frame.get .queue).trans queue]
    cases c <;> rfl
  generalize s.handOver (.frame (frameReport e s.recv.stray f)) = v at run posts frame
  have whole := (frame.widen ([.contexts, .stray, .queue] ++ postParts)).trans ((framePosted_frame c (e.countFrame f.outcome :: rest) v).widen _)
  rw [follow_quiet _ (portQuiet_of_unchanged quiet whole)] at run
  refine ⟨_, run, frameReport_eq e s.recv.stray outcome ▸ (posts.followed (framePosted_frame _ _ _)).tidyInterval, ?free, ?other, ?stray, ?queue, ?reserved,
    timedBut_tidyInterval whole⟩
  case free =>
    rw [tidyInterval_ctx]
    cases c <;> rfl
  case other =>
    rw [tidyInterval_ctx, framePosted_ctx_other]
    exact ctx_of_contexts frame _
  case stray =>
    rw [tidyInterval_recv]
    rfl
  case queue =>
    rw [tidyInterval_queue, queue, outcome]
    exact congrArg (· :: rest) (e.countFrame_eq o)
  case reserved =>
    have same : v.reserved = s.reserved := by
      rw [reserved_eq, reserved_eq, heldByFrames_of_unchanged frame, show v.sched.queue = _ from frame.get .queue,
        show v.sched.credit = _ from frame.get .capCredit, show v.engine = _ from frame.get .engine,
        show v.sensor.staged = _ from frame.get .staged]
    rw [tidyInterval_reserved, ← same]
    refine framePosted_reserved ((ctx_of_contexts frame c).trans ctx) held ?_
    rw [show v.sched.queue = _ from frame.get .queue, queue]
    rfl

end Sys2Proof.Machine
end

section
/-! SUPPORT for O39 to O42, O44 and O51, and the PROOF of O41: what the events of the Exposure Sequencer make of the
frame of a context, in the words of the specification, and the follow-on at the sensor port. -/

set_option Elab.async false

namespace Sys2Proof.Machine

open Sys2Proof

/-! ## The clauses of an event, with changes elsewhere before or behind it -/

theorem recv_of_unchanged {s t : State} {ps : List Part} (frame : unchangedBut ps s t)
    (receiver : ps.contains .receiver = false := by decide) (stray : ps.contains .stray = false := by decide) :
    t.recv = s.recv := by
  have receiver := frame.get .receiver receiver
  have stray := frame.get .stray stray
  simp only [Part.same, Prod.mk.injEq] at receiver stray
  obtain ⟨state, served, expected, timer⟩ := receiver
  calc t.recv = ⟨t.recv.state, t.recv.served, t.recv.expected, t.recv.timer, t.recv.stray⟩ := rfl
    _ = s.recv := by rw [state, served, expected, timer, stray]

section Around

variable {r : CaptureRequest} {c : CtxId} {f : Frame} {o : FrameOutcome} {s t v : State} {ps : List Part}

theorem StartMet.followed (h : StartMet r c f s t) (frame : unchangedBut ps t v)
    (contexts : ps.contains .contexts = false := by decide) (lines : ps.contains .lines = false := by decide) :
    StartMet r c f s v := by
  have lines := frame.get .lines lines
  simp only [Part.same, Prod.mk.injEq] at lines
  unfold StartMet
  rw [ctx_of_contexts frame c contexts, lines.1, lines.2]
  exact h

theorem StartMet.preceded (frame : unchangedBut ps s t) (h : StartMet r c f t v)
    (time : ps.contains .time = false := by decide) (lines : ps.contains .lines = false := by decide) :
    StartMet r c f s v := by
  have lines := frame.get .lines lines
  simp only [Part.same, Prod.mk.injEq] at lines
  unfold StartMet at h ⊢
  rwa [lines.1, lines.2, show t.now = s.now from frame.get .time time] at h

theorem ClosedNow.followed (h : ClosedNow c o f s t) (frame : unchangedBut ps t v)
    (contexts : ps.contains .contexts = false := by decide) (stop : ps.contains .stop = false := by decide) :
    ClosedNow c o f s v := by
  have stop := frame.get .stop stop
  simp only [Part.same, Prod.mk.injEq] at stop
  unfold ClosedNow
  rw [ctx_of_contexts frame c contexts, stop.1, stop.2]
  exact h

theorem ClosedNow.preceded (frame : unchangedBut ps s t) (h : ClosedNow c o f t v)
    (stop : ps.contains .stop = false := by decide) : ClosedNow c o f s v := by
  have stop := frame.get .stop stop
  simp only [Part.same, Prod.mk.injEq] at stop
  unfold ClosedNow at h ⊢
  rwa [stop.1, stop.2] at h

theorem ExposureEnded.followed (h : ExposureEnded c f s t) (frame : unchangedBut ps t v)
    (apart : ([Part.contexts, .lines, .receiver, .stray].all fun p => !ps.contains p) = true := by decide) :
    ExposureEnded c f s v := by
  simp only [List.all_cons, List.all_nil, Bool.and_true, Bool.and_eq_true, Bool.not_eq_true'] at apart
  obtain ⟨contexts, lines, receiver, stray⟩ := apart
  have lines := frame.get .lines lines
  simp only [Part.same, Prod.mk.injEq] at lines
  unfold ExposureEnded
  rw [ctx_of_contexts frame c contexts, lines.1, lines.2, recv_of_unchanged frame receiver stray]
  exact h

theorem ExposureEnded.preceded (frame : unchangedBut ps s t) (h : ExposureEnded c f t v)
    (apart : ([Part.time, .setup, .stray].all fun p => !ps.contains p) = true := by decide) :
    ExposureEnded c f s v := by
  simp only [List.all_cons, List.all_nil, Bool.and_true, Bool.and_eq_true, Bool.not_eq_true'] at apart
  obtain ⟨time, setup, stray⟩ := apart
  unfold ExposureEnded expecting at h ⊢
  rwa [show t.now = s.now from frame.get .time time, show t.ring.setup = s.ring.setup from frame.get .setup setup,
    show t.recv.stray = s.recv.stray from frame.get .stray stray] at h

theorem EarlyTaken.followed (h : EarlyTaken r s t) (frame : unchangedBut ps t v)
    (latch : ps.contains .latch = false := by decide) (missed : ps.contains .missed = false := by decide) :
    EarlyTaken r s v := by
  unfold EarlyTaken
  rw [show v.seq.latch = t.seq.latch from frame.get .latch latch,
    show v.seq.missed = t.seq.missed from frame.get .missed missed]
  exact h

theorem EarlyTaken.preceded (frame : unchangedBut ps s t) (h : EarlyTaken r t v)
    (latch : ps.contains .latch = false := by decide) (missed : ps.contains .missed = false := by decide) :
    EarlyTaken r s v := by
  unfold EarlyTaken at h ⊢
  rwa [show t.seq.latch = s.seq.latch from frame.get .latch latch,
    show t.seq.missed = s.seq.missed from frame.get .missed missed] at h

end Around

/-! ## What each event makes of the frame -/

section Events

variable {c : CtxId} {f : Frame} {s : State}

/-- The close of a frame (R15, R47). -/
theorem closeFrame_eq (ctx : s.ctx c = some f) (o : FrameOutcome) :
    s.closeFrame c o = { s.setCtx c (some (f.closed o)) with
      sched := { s.sched with endCause := s.sched.endCause <|> (f.outcome.getD o).endCause } } := by
  rw [closeFrame_of_ctx ctx]
  cases c <;> rfl

theorem closeFrame_closed (ctx : s.ctx c = some f) (o : FrameOutcome) : ClosedNow c o f s (s.closeFrame c o) := by
  rw [closeFrame_eq ctx]
  exact ⟨by cases c <;> rfl, rfl, rfl⟩

/-- Entry to EXPOSING (R40). -/
theorem enterExposing_eq (ctx : s.ctx c = some f) (r : CaptureRequest) :
    s.enterExposing r c =
      { s.setCtx c (some { f with
          phase := .exposing
          leadTimer := none
          expStart := some s.now
          expTimer := some { started := s.now, duration := if f.flags.shortLevel then 10 else r.exposure } }) with
        seq := { (s.setCtx c (some { f with
            phase := .exposing
            leadTimer := none
            expStart := some s.now
            expTimer := some { started := s.now, duration := if f.flags.shortLevel then 10 else r.exposure } })).seq with
          expose := true, strobe := s.seq.strobe || r.strobe } } := by
  unfold State.enterExposing
  rw [updCtx_of_ctx ctx]
  cases c <;> rfl

theorem startCondition_met (ctx : s.ctx c = some f) (r : CaptureRequest) : StartMet r c f s (s.startCondition r c) := by
  unfold State.startCondition StartMet
  rw [updCtx_of_ctx ctx]
  by_cases lead : r.strobe = true ∧ 0 < r.lead
  · rw [if_pos lead, if_pos lead, updCtx_setCtx]
    cases c <;> exact ⟨rfl, rfl, rfl⟩
  · rw [if_neg lead, if_neg lead]
    rw [enterExposing_eq (setCtx_ctx_same ..)]
    cases c <;> exact ⟨rfl, rfl, rfl⟩

theorem startCondition_ctx_other (ctx : s.ctx c = some f) (r : CaptureRequest) :
    (s.startCondition r c).ctx (other c) = s.ctx (other c) := by
  unfold State.startCondition
  rw [updCtx_of_ctx ctx]
  by_cases lead : r.strobe = true ∧ 0 < r.lead
  · rw [if_pos lead, updCtx_setCtx]
    cases c <;> rfl
  · rw [if_neg lead, enterExposing_eq (setCtx_ctx_same ..)]
    cases c <;> rfl

/-- The end of an exposure (R44). -/
theorem exposureEnd_eq (ctx : s.ctx c = some f) :
    s.exposureEnd c = State.expect c (s.releaseLines.setCtx c
      (some { f.exposedUntil s.now with phase := .readout, endPending := false, expTimer := none })) := by
  have recorded : f.recordActual s.now = f.exposedUntil s.now := by
    unfold Frame.recordActual Frame.exposedUntil
    cases f.actual <;> rfl
  unfold State.exposureEnd State.enterReadout
  rw [updCtx_of_ctx (s := s.releaseLines) ctx, updCtx_setCtx, recorded]

theorem exposureEnd_ended (ctx : s.ctx c = some f) : ExposureEnded c f s (s.exposureEnd c) := by
  rw [exposureEnd_eq ctx]
  cases c <;> exact ⟨rfl, rfl, rfl, rfl⟩

theorem exposureEnd_ctx_other (ctx : s.ctx c = some f) : (s.exposureEnd c).ctx (other c) = s.ctx (other c) := by
  rw [exposureEnd_eq ctx]
  cases c <;> rfl

/-- The exposure would end while the other context is in READOUT: the end is deferred (R43). -/
theorem exposureWouldEnd_deferred (ctx : s.ctx c = some f) (busy : s.inPhase (other c) .readout = true) :
    s.exposureWouldEnd c =
      s.setCtx c (some { f with endPending := true, flags := { f.flags with stretched := true } }) := by
  unfold State.exposureWouldEnd
  rw [if_pos busy, updCtx_of_ctx ctx]

theorem exposureWouldEnd_ends (free : s.inPhase (other c) .readout = false) : s.exposureWouldEnd c = s.exposureEnd c := by
  unfold State.exposureWouldEnd
  rw [free]
  rfl

/-- A start event meets the context in WAIT_START (R35). -/
theorem startEvent_meets (waits : s.inPhase c .waitStart = true) (alone : s.inPhase (other c) .waitStart = false)
    (r : CaptureRequest) : s.startEvent r = s.startCondition r c := by
  unfold State.startEvent
  cases c with
  | c0 => rw [if_pos waits]
  | c1 => rw [if_neg (by rw [show s.inPhase .c0 .waitStart = false from alone]; decide), if_pos waits]

/-- A start event that meets none is early (R37). -/
theorem startEvent_early (c0 : s.inPhase .c0 .waitStart = false) (c1 : s.inPhase .c1 .waitStart = false)
    (r : CaptureRequest) : s.startEvent r = s.earlyTrigger r := by
  unfold State.startEvent
  rw [c0, c1]
  rfl

theorem earlyTrigger_taken (r : CaptureRequest) (s : State) : EarlyTaken r s (s.earlyTrigger r) := by
  unfold State.earlyTrigger EarlyTaken
  by_cases latches : r.discard = false ∧ s.seq.latch = false
  · rw [if_pos latches, if_pos latches]
    exact ⟨rfl, rfl⟩
  · rw [if_neg latches, if_neg latches]
    exact ⟨rfl, rfl⟩

/-- The end event of a LEVEL request meets the context where the other neither leads nor exposes (R34). -/
theorem endEvent_at (ctx : s.ctx c = some f) (lead : s.inPhase (other c) .lead = false)
    (exposing : s.inPhase (other c) .exposing = false) : s.endEvent = s.endEventAt c := by
  have idle : ∀ {d : CtxId}, s.inPhase d .lead = false → s.inPhase d .exposing = false → s.endEventAt d = s := by
    intro d lead exposing
    unfold State.endEventAt
    cases frame : s.ctx d with
    | none => rfl
    | some g =>
      rw [inPhase_of_ctx frame, decide_eq_false_iff_not] at lead exposing
      dsimp only
      split
      next is => exact absurd is lead
      next is => exact absurd is exposing
      next => rfl
  unfold State.endEvent
  cases c with
  | c0 =>
    split
    next => rfl
    next neither =>
      simp only [Bool.or_eq_true, not_or, Bool.not_eq_true] at neither
      rw [idle neither.1 neither.2, show s.endEventAt .c1 = s from idle lead exposing]
  | c1 =>
    rw [if_neg]
    rw [show s.inPhase .c0 .lead = false from lead, show s.inPhase .c0 .exposing = false from exposing]
    decide

theorem endEventAt_lead (ctx : s.ctx c = some f) (lead : f.phase = .lead) :
    s.endEventAt c = s.setCtx c (some { f with flags := { f.flags with shortLevel := true } }) := by
  rw [← updCtx_of_ctx ctx fun f => { f with flags := { f.flags with shortLevel := true } }]
  unfold State.endEventAt
  simp only [ctx, lead]

theorem endEventAt_exposing (ctx : s.ctx c = some f) (exposing : f.phase = .exposing) (pending : f.endPending = false)
    (long : f.flags.shortLevel = false) : s.endEventAt c = s.exposureWouldEnd c := by
  unfold State.endEventAt
  simp only [ctx, exposing, pending, long, and_self, if_true]

theorem endEventAt_none (ctx : s.ctx c = some f) (lead : f.phase ≠ .lead)
    (exposing : f.phase = .exposing → f.endPending = true ∨ f.flags.shortLevel = true) : s.endEventAt c = s := by
  unfold State.endEventAt
  rw [ctx]
  dsimp only
  split
  next is => exact absurd is lead
  next is =>
    rw [if_neg]
    rintro ⟨pending, long⟩
    rcases exposing is with h | h
    · rw [h] at pending
      cases pending
    · rw [h] at long
      cases long
  next => rfl

end Events

/-! ## The flush of a waiting FLUSH_STAGED (R116, R120) -/

theorem flushRecord_job {s : State} (h : s.flushRecord.isSome = true) :
    ∃ tag, s.engine.job = some { tag := tag, work := .flush } := by
  unfold State.flushRecord at h
  cases job : s.engine.job with
  | none => simp [job] at h
  | some j =>
    obtain ⟨tag, work⟩ := j
    by_cases flush : work = .flush
    · exact ⟨tag, by rw [flush]⟩
    · simp [job, flush] at h

theorem flushBegun_frame (s : State) (waits : Bool) (staged : List Staged) (flush : Option Flush)
    (port : Option Transaction) (same : s.sensor.flushWaits = waits) :
    unchangedBut [.staged, .flush, .port] s
      { s with sensor := { s.sensor with flushWaits := waits, staged := staged, flush := flush, port := port } } := by
  subst same
  intro p hp
  cases p <;> first | rfl | exact absurd (by decide) hp

theorem flushWaits_frame (s : State) (waits : Bool) :
    unchangedBut [.waits] s { s with sensor := { s.sensor with flushWaits := waits } } := by
  intro p hp
  cases p <;> first | rfl | exact absurd (by decide) hp

/-- A FLUSH_STAGED waits with settings staged, for a flush that nothing but a context holds back (R116, R120). -/
structure FlushHeldBack (s : State) : Prop where
  record : s.flushRecord.isSome = true
  alone : s.noneWaits
  power : s.sensor.power = .ready
  flush : s.sensor.flush = none
  staged : s.sensor.staged ≠ []

/-- The pieces of the Sensor Link. -/
def sensorParts : List Part := [.power, .replay, .port, .waits, .mirror, .staged, .flush, .generation]

theorem sensor_of_unchanged {s t : State} {ps : List Part} (frame : unchangedBut ps s t)
    (apart : (sensorParts.all fun p => !ps.contains p) = true := by decide) : t.sensor = s.sensor := by
  simp only [sensorParts, List.all_cons, List.all_nil, Bool.and_true, Bool.and_eq_true, Bool.not_eq_true'] at apart
  obtain ⟨power, replay, port, waits, mirror, staged, flush, generation⟩ := apart
  have power := frame.get .power power
  have replay := frame.get .replay replay
  have waits := frame.get .waits waits
  simp only [Part.same, Prod.mk.injEq] at power replay waits
  obtain ⟨power, enableOut, settle, replayFlag⟩ := power
  obtain ⟨replayPos, replayed, failed⟩ := replay
  obtain ⟨replayWaits, flushWaits, engineWaits⟩ := waits
  have eta : ∀ l m : SensorLink, l.power = m.power → l.enableOut = m.enableOut → l.settle = m.settle →
      l.replayFlag = m.replayFlag → l.replayPos = m.replayPos → l.replayed = m.replayed → l.failed = m.failed →
      l.port = m.port → l.replayWaits = m.replayWaits → l.flushWaits = m.flushWaits → l.engineWaits = m.engineWaits →
      l.mirror = m.mirror → l.staged = m.staged → l.flush = m.flush → l.generation = m.generation → l = m := by
    rintro ⟨⟩ ⟨⟩
    rintro rfl rfl rfl rfl rfl rfl rfl rfl rfl rfl rfl rfl rfl rfl rfl
    rfl
  exact eta _ _ power enableOut settle replayFlag replayPos replayed failed (frame.get .port port) replayWaits flushWaits
    engineWaits (frame.get .mirror mirror) (frame.get .staged staged) (frame.get .flush flush)
    (frame.get .generation generation)

/-- What touches `ps` and then `qs`, with the interval timer tested behind it. -/
theorem timedBut_append {ps qs : List Part} {s v w : State} (frame : unchangedBut ps s v) (behind : unchangedBut qs v w)
    (first : ps.contains .interval = false) (second : qs.contains .interval = false) :
    timedBut (ps ++ qs) s w.tidyInterval := by
  refine timedBut_tidyInterval ((frame.mono fun _ => List.mem_append_left _).trans
    (behind.mono fun _ => List.mem_append_right _)) ?_
  rw [List.contains_eq_mem] at first second ⊢
  simp only [decide_eq_false_iff_not, List.mem_append, not_or] at first second ⊢
  exact ⟨first, second⟩

/-- An event that leaves the Sensor Link lifts what held the flush back: it begins on a free port and waits for a busy
one. -/
theorem follow_lifts {s v : State} {ps : List Part} (held : FlushHeldBack s) (frame : unchangedBut ps s v)
    (c0 : v.blocksFlush .c0 = false) (c1 : v.blocksFlush .c1 = false)
    (apart : ((sensorParts ++ [Part.engine, .time, .interval]).all fun p => !ps.contains p) = true := by decide) :
    unchangedBut [.interval, .staged, .flush, .port, .waits] v v.follow ∧
    (s.sensor.port = none → FlushBegun s.sensor s v.follow ∧ timedBut (ps ++ [.staged, .flush, .port]) s v.follow) ∧
    (s.sensor.port ≠ none → v.follow.sensor = { s.sensor with flushWaits := true } ∧
      timedBut (ps ++ [.waits]) s v.follow) := by
  rw [List.all_append, Bool.and_eq_true] at apart
  obtain ⟨link, others⟩ := apart
  simp only [List.all_cons, List.all_nil, Bool.and_true, Bool.and_eq_true, Bool.not_eq_true'] at others
  obtain ⟨engine, time, interval⟩ := others
  have sensor := sensor_of_unchanged frame link
  obtain ⟨record, ⟨replay, waits, access⟩, power, flush, staged⟩ := held
  obtain ⟨tag, job⟩ := flushRecord_job record
  rw [← show v.engine = s.engine from frame.get .engine engine] at job
  rw [← sensor] at power flush staged replay waits access ⊢
  have may : v.flushCondition = true := (flushCondition_iff v).mpr ⟨c0, c1, power, flush⟩
  have asks := fun busy => follow_asks job staged may busy
  obtain ⟨e, rest, front⟩ := List.exists_cons_of_ne_nil staged
  have begins := fun free => follow_begins job front may free replay
  refine ⟨?_, fun free => ⟨?_, ?_⟩, fun busy => ⟨by rw [asks busy, tidyInterval_sensor], ?_⟩⟩
  · by_cases free : v.sensor.port = none
    · rw [begins free]
      exact ((flushBegun_frame v _ _ _ _ waits).widen _).trans ((tidyInterval_frame _).widen _)
    · rw [asks free]
      exact ((flushWaits_frame v true).widen _).trans ((tidyInterval_frame _).widen _)
  · intro e' rest' front'
    rw [front] at front'
    cases front'
    rw [begins free]
    unfold State.noneWaits
    rw [tidyInterval_sensor, begunNow, show v.now = s.now from frame.get .time time]
    exact ⟨rfl, rfl, rfl, replay, rfl, access⟩
  · rw [begins free]
    exact timedBut_append frame (flushBegun_frame v _ _ _ _ waits) interval rfl
  · rw [asks busy]
    exact timedBut_append frame (flushWaits_frame v true) interval rfl

/-! ## The timers of LEAD and WAIT_START (R36, R39) -/

theorem blocksFlush_congr {s t : State} {c : CtxId} (same : t.ctx c = s.ctx c) : t.blocksFlush c = s.blocksFlush c := by
  simp only [State.blocksFlush, State.inPhase, same]

/-- A closed frame holds no flush back (R116). -/
theorem blocksFlush_closed {s : State} {c : CtxId} {f : Frame} {o : FrameOutcome} (ctx : s.ctx c = some (f.closed o)) :
    s.blocksFlush c = false := (blocksFlush_of_ctx ctx).trans rfl

/-- Neither context holds the flush back where `c` has closed and the other did not. -/
theorem blocksFlush_both {s : State} {c : CtxId} (closed : s.blocksFlush c = false) (open_ : s.blocksFlush (other c) = false) :
    s.blocksFlush .c0 = false ∧ s.blocksFlush .c1 = false := by
  cases c
  · exact ⟨closed, open_⟩
  · exact ⟨open_, closed⟩

theorem exec_leadExpiry {s : State} {c : CtxId} {f : Frame} {r : CaptureRequest} (ctx : s.ctx c = some f)
    (request : s.request = some r) (phase : f.phase = .lead) (due : isDue s.now f.leadTimer = true) :
    exec (.leadExpiry c) s = .next (s.enterExposing r c).follow := by
  show execLeadExpiry c s = _
  simp only [execLeadExpiry, ctx, request, phase, due, and_self, if_true]

theorem exec_leadExpiry_none {s : State} {c : CtxId} {f : Frame} (ctx : s.ctx c = some f)
    (early : ¬ (f.phase = .lead ∧ isDue s.now f.leadTimer = true)) : exec (.leadExpiry c) s = .next s := by
  show execLeadExpiry c s = _
  cases request : s.request <;> simp only [execLeadExpiry, ctx, request, early, if_false]

theorem exec_triggerTimeoutExpiry {s : State} {c : CtxId} {f : Frame} (ctx : s.ctx c = some f) :
    exec (.triggerTimeoutExpiry c) s = .next
      (if f.phase = .waitStart ∧ isDue s.now f.trigTimer = true then (s.closeFrame c .triggerTimeout).follow else s) := by
  show execTriggerTimeoutExpiry c s = _
  unfold execTriggerTimeoutExpiry
  rw [ctx]

/-- Settles O41. -/
theorem leadAndTimeoutExpiries : Obligations.LeadAndTimeoutExpiries := by
  unfold Obligations.LeadAndTimeoutExpiries
  intro c f s ctx
  rw [exec_triggerTimeoutExpiry ctx]
  refine ⟨fun r quiet request phase due => ?lead, fun phase due => ?timeout, exec_leadExpiry_none ctx,
    fun early => by rw [if_neg early]⟩
  case lead =>
    have frame := enterExposing_frame r c s
    refine ⟨(s.enterExposing r c).tidyInterval, ?_, ?_, ?_, ?_, ?_, timedBut_tidyInterval frame⟩
    · rw [exec_leadExpiry ctx request phase due, follow_quiet _ (portQuiet_of_unchanged quiet frame)]
    · rw [tidyInterval_ctx, enterExposing_eq ctx]
      cases c <;> rfl
    · rw [tidyInterval_seq, enterExposing_eq ctx]
    · rw [tidyInterval_seq, enterExposing_eq ctx]
    · rw [tidyInterval_ctx, enterExposing_eq ctx]
      cases c <;> rfl
  case timeout =>
    have closed := closeFrame_closed ctx .triggerTimeout
    have others := closeFrame_ctx_other c .triggerTimeout s
    have frame := closeFrame_frame c .triggerTimeout s
    rw [if_pos ⟨phase, due⟩]
    generalize s.closeFrame c .triggerTimeout = v at closed others frame ⊢
    refine ⟨fun quiet => ⟨_, rfl, ?_⟩, fun record alone power flush staged free => ⟨_, rfl, ?_⟩⟩
    · rw [follow_quiet _ (portQuiet_of_unchanged quiet frame), tidyInterval_ctx]
      exact ⟨closed.followed (tidyInterval_frame v), others, timedBut_tidyInterval frame⟩
    · obtain ⟨c0, c1⟩ := blocksFlush_both (blocksFlush_closed closed.1) ((blocksFlush_congr others).trans free)
      obtain ⟨behind, begins, asks⟩ := follow_lifts ⟨record, alone, power, flush, staged⟩ frame c0 c1
      exact ⟨closed.followed behind, (ctx_of_contexts behind _).trans others, begins, asks⟩
end Sys2Proof.Machine
end

section
/-! PROOFS of O39 and O40: start events and the ends of exposures. -/

set_option Elab.async false

namespace Sys2Proof.Machine

open Sys2Proof

/-! ## The filter of the TRIGGER pin (R34, R185) -/

/-- The filter has taken the transition to the level at the pin. -/
def State.filtered (s : State) : State := { s with seq := { s.seq with trigger := s.seq.pin, hold := none } }

theorem filtered_frame (s : State) : unchangedBut [.trigger] s s.filtered := by
  intro p hp
  cases p <;> first | rfl | exact absurd (by decide) hp

@[simp] theorem filtered_ctx (s : State) (c : CtxId) : s.filtered.ctx c = s.ctx c := ctx_of_contexts (filtered_frame s) c

theorem exec_pin (level : Level) (s : State) : exec (.triggerTransition (.pin level)) s = .next
    (if s.seq.pin = level then s
    else { s with seq := { s.seq with
      pin := level
      hold := if level = s.seq.trigger then none else some { started := s.now, duration := 1 } } }) := by
  show Host.Outcome.next (s.pinChanges level) = _
  unfold State.pinChanges
  rw [if_congr (eq_comm (a := s.seq.trigger) (b := level)) rfl rfl]
  rfl

/-- A return of the pin to the filtered level ends the hold, so that the pulse leaves nothing (R185). -/
theorem exec_pin_back {s : State} {level : Level} (changed : level ≠ s.seq.pin) (settled : s.seq.pin = s.seq.trigger)
    (idle : s.seq.hold = none) (later : Stamp) (hold : Option Timer) :
    exec (.triggerTransition (.pin s.seq.pin))
      { s with now := later, seq := { s.seq with pin := level, hold := hold } } = .next { s with now := later } := by
  have ended : (if s.seq.pin = s.seq.trigger then none else some { started := later, duration := 1 }) = s.seq.hold :=
    (if_pos settled).trans idle.symm
  refine (exec_pin _ _).trans (congrArg _ ((if_neg changed).trans ?_))
  exact congrArg (fun hold => { s with now := later, seq := { s.seq with hold := hold } }) ended

theorem exec_held {s : State} (due : isDue s.now s.seq.hold = true) :
    exec (.triggerTransition .held) s = .next s.filteredTransition := congrArg Host.Outcome.next (if_pos due)

section Transition

variable {s : State} {r : CaptureRequest}

/-- With no live request, and at a transition that means nothing for it, the level changes alone. -/
theorem filteredTransition_none (meansNothing : ∀ r, s.liveRequest = some r → r.source = .software ∨ r.source = .interval ∨
    (r.source = .edge ∧ s.seq.pin ≠ startLevel r)) : s.filteredTransition = s.filtered := by
  have same : s.filtered.liveRequest = s.liveRequest := rfl
  unfold State.filtered at same
  cases live : s.liveRequest with
  | none => simp only [State.filteredTransition, same, live, State.filtered]
  | some r =>
    rcases meansNothing r live with source | source | ⟨source, level⟩
    · simp only [State.filteredTransition, same, live, source, State.filtered]
    · simp only [State.filteredTransition, same, live, source, State.filtered]
    · simp only [State.filteredTransition, same, live, source, level, if_false, State.filtered]

/-- A filtered transition that is a start event of the live request (Table 15). -/
theorem filteredTransition_start (live : s.liveRequest = some r) (source : r.source = .edge ∨ r.source = .level)
    (level : s.seq.pin = startLevel r) : s.filteredTransition = (s.filtered.startEvent r).follow := by
  have same : s.filtered.liveRequest = some r := live
  unfold State.filtered at same
  rcases source with source | source
  · simp only [State.filteredTransition, same, source, State.filtered]
    exact if_pos level
  · simp only [State.filteredTransition, same, source, State.filtered]
    exact if_pos level

/-- A filtered transition that is an end event of the live request (Table 15). -/
theorem filteredTransition_end (live : s.liveRequest = some r) (source : r.source = .level)
    (level : s.seq.pin ≠ startLevel r) : s.filteredTransition = s.filtered.endEvent.follow := by
  have same : s.filtered.liveRequest = some r := live
  unfold State.filtered at same
  simp only [State.filteredTransition, same, source, level, if_false, State.filtered]

end Transition

/-! ## Start events (R35, R37) -/

/-- What a start event leaves, from a state that differs from `s` in nothing it reads. -/
theorem startEvent_result {s v : State} {ps : List Part} (r : CaptureRequest) (frame : unchangedBut ps s v)
    (apart : ([Part.time, .lines, .contexts, .latch, .missed].all fun p => !ps.contains p) = true := by decide) :
    (∀ c f, s.ctx c = some f → f.phase = .waitStart → s.inPhase (other c) .waitStart = false →
      StartMet r c f s (v.startEvent r).tidyInterval ∧ (v.startEvent r).tidyInterval.ctx (other c) = s.ctx (other c) ∧
        (v.startEvent r).tidyInterval.seq.latch = s.seq.latch ∧
        (v.startEvent r).tidyInterval.seq.missed = s.seq.missed) ∧
    (s.inPhase .c0 .waitStart = false → s.inPhase .c1 .waitStart = false →
      EarlyTaken r s (v.startEvent r).tidyInterval ∧ timedBut [.latch, .missed] v (v.startEvent r).tidyInterval) := by
  simp only [List.all_cons, List.all_nil, Bool.and_true, Bool.and_eq_true, Bool.not_eq_true'] at apart
  obtain ⟨time, lines, contexts, latch, missed⟩ := apart
  have ctx := fun c => ctx_of_contexts frame c contexts
  have phase : ∀ c p, v.inPhase c p = s.inPhase c p := fun c p => by rw [State.inPhase, ctx, State.inPhase]
  refine ⟨fun c f frameOf waits alone => ?_, fun c0 c1 => ?_⟩
  · have start : v.startEvent r = v.startCondition r c := by
      refine startEvent_meets ?_ ((phase _ _).trans alone) r
      rw [phase, inPhase_of_ctx frameOf, waits]
      rfl
    have frameOf' : v.ctx c = some f := (ctx c).trans frameOf
    have moved := startCondition_frame r c v
    rw [start, tidyInterval_ctx, tidyInterval_seq]
    exact ⟨.preceded frame ((startCondition_met frameOf' r).followed (tidyInterval_frame _)) time lines,
      (startCondition_ctx_other frameOf' r).trans (ctx _), (moved.get .latch).trans (frame.get .latch latch),
      (moved.get .missed).trans (frame.get .missed missed)⟩
  · rw [startEvent_early ((phase _ _).trans c0) ((phase _ _).trans c1)]
    exact ⟨.preceded frame ((earlyTrigger_taken r v).followed (tidyInterval_frame _)) latch missed,
      timedBut_tidyInterval (earlyTrigger_frame r v)⟩

theorem exec_intervalTick {s : State} {tm : Timer} {r : CaptureRequest} (timer : s.sched.interval = some tm)
    (live : s.liveRequest = some r) : exec .intervalTick s = .next
      (if tm.duration ≤ (s.now - tm.started).toNat then
        (State.startEvent r { s with sched := { s.sched with
          interval := some { started := tm.started + BitVec.ofNat 64 tm.duration, duration := r.interval } } }).follow
      else s) := by
  show execIntervalTick s = _
  unfold execIntervalTick Timer.due
  simp only [timer, live, decide_eq_true_eq]

/-- Settles O39. -/
theorem startEvents : Obligations.StartEvents := by
  unfold Obligations.StartEvents
  refine fun s => ⟨fun level => ⟨exec_pin level s, ?glitch⟩, ?early, fun r quiet due live source level => ?start,
    fun due meansNothing => ?nothing, fun tm r quiet timer live => ⟨fun due ticked h => ?tick, fun early => ?noTick⟩⟩
  case glitch =>
    intro changed settled idle later short
    refine ⟨_, (exec_pin level s).trans (congrArg _ (if_neg changed.symm)), ?_⟩
    exact exec_pin_back changed settled idle later _
  case early =>
    intro early
    exact congrArg Host.Outcome.next (if_neg (by rw [early]; decide))
  case start =>
    have moved := startEvent_frame r s.filtered
    have frame := filtered_frame s
    obtain ⟨meets, misses⟩ := startEvent_result r frame
    have whole := (frame.widen [.trigger, .contexts, .lines, .latch, .missed]).trans (moved.widen _)
    have trigger := moved.get .trigger
    simp only [Part.same, Prod.mk.injEq] at trigger
    refine ⟨(s.filtered.startEvent r).tidyInterval, ?_, ?_, ?_, ?_, timedBut_tidyInterval whole, meets, fun c0 c1 => ?_⟩
    · rw [exec_held due, filteredTransition_start live source level, follow_quiet _ (portQuiet_of_unchanged quiet whole)]
    · rw [tidyInterval_seq, trigger.1]
      rfl
    · rw [tidyInterval_seq, trigger.2.1]
      rfl
    · rw [tidyInterval_seq, trigger.2.2]
      rfl
    · obtain ⟨early, -⟩ := misses c0 c1
      refine ⟨early, ?_⟩
      rw [startEvent_early (s := s.filtered) c0 c1]
      exact timedBut_tidyInterval ((frame.widen _).trans ((earlyTrigger_frame r _).widen _))
  case nothing => rw [exec_held due, filteredTransition_none meansNothing]; rfl
  case tick =>
    subst h
    have frame : unchangedBut [.interval] s { s with sched := { s.sched with
        interval := some { started := tm.started + BitVec.ofNat 64 tm.duration, duration := r.interval } } } := by
      intro p hp
      cases p <;> first | rfl | exact absurd (by decide) hp
    have run := exec_intervalTick timer live
    rw [if_pos due] at run
    generalize { s with sched := { s.sched with
        interval := some { started := tm.started + BitVec.ofNat 64 tm.duration, duration := r.interval } } } = v
      at run frame ⊢
    have moved := startEvent_frame r v
    rw [follow_quiet _ (portQuiet_of_unchanged (portQuiet_of_unchanged quiet frame) moved)] at run
    obtain ⟨meets, misses⟩ := startEvent_result r frame
    exact ⟨_, run, timedBut_tidyInterval (moved.widen _), meets, misses⟩
  case noTick => rw [exec_intervalTick timer live, if_neg (Nat.not_le.mpr early)]

/-! ## Ends of exposures (R41 to R44) -/

theorem exec_exposureTimerExpiry {s : State} {c : CtxId} {f : Frame} (ctx : s.ctx c = some f) (phase : f.phase = .exposing)
    (due : isDue s.now f.expTimer = true) :
    exec (.exposureTimerExpiry c) s = .next
      (if f.endPending then s.setCtx c (some { f with expTimer := none })
      else (State.exposureWouldEnd c (s.setCtx c (some { f with expTimer := none }))).follow) := by
  show execExposureTimerExpiry c s = _
  rw [← updCtx_of_ctx ctx fun f => { f with expTimer := none }]
  simp only [execExposureTimerExpiry, ctx, phase, due, and_self, if_true]

section WouldEnd

variable {s v : State} {c : CtxId} {f : Frame} {ps : List Part}

/-- The end is deferred while the other context is in READOUT. -/
theorem exposureWouldEnd_follow_deferred (quiet : v.portQuiet) (ctx : v.ctx c = some f)
    (busy : v.inPhase (other c) .readout = true) : (v.exposureWouldEnd c).follow =
      State.tidyInterval (v.setCtx c (some { f with endPending := true, flags := { f.flags with stretched := true } })) := by
  rw [follow_quiet _ (portQuiet_of_unchanged quiet (exposureWouldEnd_frame c v)), exposureWouldEnd_deferred ctx busy]

theorem exposureWouldEnd_follow_ends (quiet : v.portQuiet) (free : v.inPhase (other c) .readout = false) :
    (v.exposureWouldEnd c).follow = (v.exposureEnd c).tidyInterval := by
  rw [follow_quiet _ (portQuiet_of_unchanged quiet (exposureWouldEnd_frame c v)), exposureWouldEnd_ends free]

theorem exposureWouldEnd_ctx_other (ctx : v.ctx c = some f) :
    (v.exposureWouldEnd c).ctx (other c) = v.ctx (other c) := by
  cases busy : v.inPhase (other c) .readout with
  | true => rw [exposureWouldEnd_deferred ctx busy, setCtx_ctx_other]
  | false => rw [exposureWouldEnd_ends busy, exposureEnd_ctx_other ctx]

theorem endEventAt_ctx_other (ctx : v.ctx c = some f) : (v.endEventAt c).ctx (other c) = v.ctx (other c) := by
  unfold State.endEventAt
  rw [ctx]
  dsimp only
  split
  · exact updCtx_ctx_other ..
  · split
    · exact exposureWouldEnd_ctx_other ctx
    · rfl
  · rfl

end WouldEnd

/-- The exposure timer expires. -/
theorem exposureTimer_ends {s : State} {c : CtxId} {f : Frame} (quiet : s.portQuiet) (ctx : s.ctx c = some f)
    (phase : f.phase = .exposing) (due : isDue s.now f.expTimer = true) :
    ∃ t, exec (.exposureTimerExpiry c) s = .next t ∧ t.ctx (other c) = s.ctx (other c) ∧
      (f.endPending = true → t.ctx c = some { f with expTimer := none } ∧ unchangedBut [.contexts] s t) ∧
      (f.endPending = false → s.inPhase (other c) .readout = true →
        t.ctx c = some { f with expTimer := none, endPending := true, flags := { f.flags with stretched := true } } ∧
          timedBut [.contexts] s t) ∧
      (f.endPending = false → s.inPhase (other c) .readout = false →
        ExposureEnded c f s t ∧ timedBut [.contexts, .lines, .receiver] s t) := by
  have run := exec_exposureTimerExpiry ctx phase due
  have frame := setCtx_frame c (some { f with expTimer := none }) s
  have ran : (s.setCtx c (some { f with expTimer := none })).ctx c = some { f with expTimer := none } := setCtx_ctx_same ..
  have others : (s.setCtx c (some { f with expTimer := none })).ctx (other c) = s.ctx (other c) := setCtx_ctx_other ..
  have phases : ∀ p, (s.setCtx c (some { f with expTimer := none })).inPhase (other c) p = s.inPhase (other c) p :=
    setCtx_inPhase_other s c _
  have quiet := portQuiet_of_unchanged quiet frame
  generalize s.setCtx c (some { f with expTimer := none }) = u at run frame ran others phases quiet
  by_cases pending : f.endPending = true
  · rw [if_pos pending] at run
    exact ⟨u, run, others, fun _ => ⟨ran, frame⟩, fun goesOn => by simp [pending] at goesOn,
      fun goesOn => by simp [pending] at goesOn⟩
  · rw [if_neg pending] at run
    cases busy : s.inPhase (other c) .readout with
    | true =>
      rw [exposureWouldEnd_follow_deferred (f := { f with expTimer := none }) quiet ran ((phases _).trans busy)] at run
      refine ⟨_, run, ?_, fun h => absurd h pending, fun _ _ => ⟨?_, ?_⟩, fun _ h => absurd h (by decide)⟩
      · rw [tidyInterval_ctx, setCtx_ctx_other, others]
      · rw [tidyInterval_ctx, setCtx_ctx_same]
      · exact timedBut_tidyInterval (frame.trans (setCtx_frame _ _ _))
    | false =>
      rw [exposureWouldEnd_follow_ends quiet ((phases _).trans busy)] at run
      refine ⟨_, run, ?_, fun h => absurd h pending, fun _ h => absurd h (by decide), fun _ _ => ⟨?_, ?_⟩⟩
      · rw [tidyInterval_ctx, exposureEnd_ctx_other ran, others]
      · have ended : ExposureEnded c f u (u.exposureEnd c) := exposureEnd_ended (f := { f with expTimer := none }) ran
        exact .preceded frame (ended.followed (tidyInterval_frame _))
      · exact timedBut_tidyInterval ((frame.widen _).trans (exposureEnd_frame c u))

/-- The end event of a LEVEL request. -/
theorem endEvent_ends {s : State} {c : CtxId} {f : Frame} {r : CaptureRequest} (quiet : s.portQuiet) (ctx : s.ctx c = some f)
    (due : isDue s.now s.seq.hold = true) (live : s.liveRequest = some r) (source : r.source = .level)
    (level : s.seq.pin ≠ startLevel r) (lead : s.inPhase (other c) .lead = false)
    (exposing : s.inPhase (other c) .exposing = false) :
    ∃ t, exec (.triggerTransition .held) s = .next t ∧ t.seq.trigger = s.seq.pin ∧ t.seq.pin = s.seq.pin ∧
      t.seq.hold = none ∧ t.ctx (other c) = s.ctx (other c) ∧
      (f.phase = .lead → t.ctx c = some { f with flags := { f.flags with shortLevel := true } } ∧
        timedBut [.trigger, .contexts] s t) ∧
      (f.phase = .exposing → f.endPending = false → f.flags.shortLevel = false → s.inPhase (other c) .readout = true →
        t.ctx c = some { f with endPending := true, flags := { f.flags with stretched := true } } ∧
          timedBut [.trigger, .contexts] s t) ∧
      (f.phase = .exposing → f.endPending = false → f.flags.shortLevel = false → s.inPhase (other c) .readout = false →
        ExposureEnded c f s t ∧ timedBut [.trigger, .contexts, .lines, .receiver] s t) ∧
      (f.phase ≠ .lead → (f.phase = .exposing → f.endPending = true ∨ f.flags.shortLevel = true) →
        timedBut [.trigger] s t) := by
  have frame := filtered_frame s
  have ctx' : s.filtered.ctx c = some f := (filtered_ctx s c).trans ctx
  have event : s.filtered.endEvent = s.filtered.endEventAt c := endEvent_at ctx' lead exposing
  have moved := endEventAt_frame c s.filtered
  have quiet := portQuiet_of_unchanged quiet frame
  have run := exec_held due
  rw [filteredTransition_end live source level, event, follow_quiet _ (portQuiet_of_unchanged quiet moved)] at run
  have trigger := moved.get .trigger
  simp only [Part.same, Prod.mk.injEq] at trigger
  refine ⟨_, run, ?_, ?_, ?_, ?_, fun phase => ⟨?_, ?_⟩, fun phase pending long busy => ⟨?_, ?_⟩,
    fun phase pending long free => ⟨?_, ?_⟩, fun notLead kept => ?_⟩
  · rw [tidyInterval_seq, trigger.1]
    rfl
  · rw [tidyInterval_seq, trigger.2.1]
    rfl
  · rw [tidyInterval_seq, trigger.2.2]
    rfl
  · rw [tidyInterval_ctx, ← filtered_ctx s]
    exact endEventAt_ctx_other ctx'
  · rw [tidyInterval_ctx, endEventAt_lead ctx' phase, setCtx_ctx_same]
  · rw [endEventAt_lead ctx' phase]
    exact timedBut_tidyInterval ((frame.widen _).trans ((setCtx_frame _ _ _).widen _))
  · rw [tidyInterval_ctx, endEventAt_exposing ctx' phase pending long, exposureWouldEnd_deferred (s := s.filtered) ctx' busy, setCtx_ctx_same]
  · rw [endEventAt_exposing ctx' phase pending long, exposureWouldEnd_deferred (s := s.filtered) ctx' busy]
    exact timedBut_tidyInterval ((frame.widen _).trans ((setCtx_frame _ _ _).widen _))
  · rw [endEventAt_exposing ctx' phase pending long, exposureWouldEnd_ends (s := s.filtered) free]
    exact .preceded frame ((exposureEnd_ended ctx').followed (tidyInterval_frame _))
  · exact timedBut_tidyInterval ((frame.widen _).trans (moved.widen _))
  · rw [endEventAt_none ctx' notLead kept]
    exact timedBut_tidyInterval frame

/-- Settles O40: by its timer (`exposureTimer_ends`) and by an end event (`endEvent_ends`). -/
theorem exposureEnds : Obligations.ExposureEnds := by
  unfold Obligations.ExposureEnds
  intro c f s quiet ctx
  refine ⟨exposureTimer_ends quiet ctx, fun early => ?_, fun r due live source level lead exposing =>
    endEvent_ends quiet ctx due live source level lead exposing⟩
  show execExposureTimerExpiry c s = _
  simp only [execExposureTimerExpiry, ctx, early, if_false]

end Sys2Proof.Machine
end

section
/-! SUPPORT for O9, O17, O36 and O37: what a stop mode applied to the active request does at the two contexts (R22, R48, R49,
Tables 11 and 18). -/

set_option Elab.async false

namespace Sys2Proof.Machine

open Sys2Proof

/-! ## One context -/

/-- With an end cause set the close of a frame changes the frame alone (R15). -/
theorem closeFrame_of_cause {s : State} {c : CtxId} {f : Frame} (ctx : s.ctx c = some f) (o : FrameOutcome)
    (cause : s.sched.endCause ≠ none) : s.closeFrame c o = s.setCtx c (some (f.closed o)) := by
  rw [closeFrame_eq ctx]
  have kept : (s.sched.endCause <|> (f.outcome.getD o).endCause) = s.sched.endCause := by
    obtain ⟨e, he⟩ := Option.ne_none_iff_exists'.mp cause
    rw [he]
    rfl
  rw [kept]
  cases c <;> rfl

/-- GRACEFUL at one context (R48). -/
theorem gracefulAt_eq {s : State} (c : CtxId) (cause : s.sched.endCause ≠ none) :
    s.gracefulAt c = s.setCtx c ((s.ctx c).map Frame.afterGraceful) := by
  unfold State.gracefulAt
  cases ctx : s.ctx c with
  | none =>
    rw [State.inPhase, State.inPhase, State.inPhase, ctx]
    exact (setCtx_self ctx).symm
  | some f =>
    simp only [inPhase_of_ctx ctx, Bool.or_eq_true, decide_eq_true_eq, Option.map_some, Frame.afterGraceful, or_assoc]
    by_cases waits : f.phase = .reserving ∨ f.phase = .gap ∨ f.phase = .waitStart
    · rw [if_pos waits, if_pos waits, closeFrame_of_cause ctx _ cause]
    · rw [if_neg waits, if_neg waits, setCtx_self ctx]

/-- ABORT at one context, by Table 18 (R49). -/
structure AbortedAt (c : CtxId) (s t : State) : Prop where
  frame : t.ctx c = (s.ctx c).map (Frame.afterAbort s.now (s.inPhase (other c) .readout))
  others : t.ctx (other c) = s.ctx (other c)
  exposing : s.inPhase c .exposing = true → t.seq.expose = false ∧ t.seq.strobe = false ∧
    t.recv = if s.inPhase (other c) .readout then s.recv else expecting c s
  lead : s.inPhase c .lead = true → t.seq.strobe = false
  kept : s.inPhase c .exposing = false → t.recv = s.recv ∧ t.seq.expose = s.seq.expose
  strobeOff : s.seq.strobe = false → t.seq.strobe = false
  sched : t.sched = s.sched

theorem afterAbort_of_waiting {f : Frame} (now : Stamp) (busy : Bool) (exposing : f.phase ≠ .exposing)
    (readout : f.phase ≠ .readout) (closing : f.phase ≠ .closing) : f.afterAbort now busy = f.closed .aborted := by
  simp only [Frame.afterAbort, exposing, readout, closing, if_false]

theorem setCtx_abortedAt {s : State} {c : CtxId} {f g : Frame} (ctx : s.ctx c = some f) (exposing : f.phase ≠ .exposing)
    (lead : f.phase ≠ .lead) (after : f.afterAbort s.now (s.inPhase (other c) .readout) = g) :
    AbortedAt c s (s.setCtx c (some g)) where
  frame := by rw [setCtx_ctx_same, ctx, Option.map_some, after]
  others := setCtx_ctx_other ..
  exposing h := by simp [inPhase_of_ctx ctx, exposing] at h
  lead h := by simp [inPhase_of_ctx ctx, lead] at h
  kept _ := ⟨setCtx_recv .., setCtx_expose ..⟩
  strobeOff h := (setCtx_strobe ..).trans h
  sched := setCtx_sched ..

theorem recordActual_eq (now : Stamp) (f : Frame) : f.recordActual now = f.exposedUntil now := by
  unfold Frame.recordActual Frame.exposedUntil
  cases f.actual <;> rfl

section AbortAt

variable {s : State} {c : CtxId} {f : Frame}

theorem abortAt_free (ctx : s.ctx c = none) : AbortedAt c s (s.abortAt c) := by
  have none : ∀ p, s.inPhase c p = false := fun p => by simp [State.inPhase, ctx]
  unfold State.abortAt
  rw [ctx]
  exact ⟨by simp [ctx], rfl, fun h => by simp [none] at h, fun h => by simp [none] at h, fun _ => ⟨rfl, rfl⟩, id, rfl⟩

theorem abortAt_waiting (ctx : s.ctx c = some f) (cause : s.sched.endCause ≠ none)
    (waits : f.phase = .reserving ∨ f.phase = .gap ∨ f.phase = .waitStart) : AbortedAt c s (s.abortAt c) := by
  have closes : s.abortAt c = s.closeFrame c .aborted := by
    unfold State.abortAt
    rw [ctx]
    rcases waits with phase | phase | phase <;> simp only [phase]
  have phase : f.phase ≠ .exposing ∧ f.phase ≠ .readout ∧ f.phase ≠ .closing ∧ f.phase ≠ .lead := by
    rcases waits with phase | phase | phase <;> rw [phase] <;> decide
  obtain ⟨exposing, readout, closing, lead⟩ := phase
  rw [closes, closeFrame_of_cause ctx _ cause]
  exact setCtx_abortedAt ctx exposing lead (afterAbort_of_waiting _ _ exposing readout closing)

theorem abortAt_lead (ctx : s.ctx c = some f) (cause : s.sched.endCause ≠ none) (phase : f.phase = .lead) :
    AbortedAt c s (s.abortAt c) := by
  have closes : s.abortAt c = State.setCtx c (some (f.closed .aborted)) { s with seq := { s.seq with strobe := false } } := by
    rw [← closeFrame_of_cause (s := { s with seq := { s.seq with strobe := false } }) ctx .aborted cause]
    unfold State.abortAt
    simp only [ctx, phase]
  rw [closes]
  refine ⟨?_, ?_, fun h => by simp [inPhase_of_ctx ctx, phase] at h, fun _ => ?_, fun _ => ?_, fun _ => ?_, ?_⟩
  · rw [setCtx_ctx_same, ctx, Option.map_some,
      afterAbort_of_waiting _ _ (by rw [phase]; decide) (by rw [phase]; decide) (by rw [phase]; decide)]
  all_goals cases c <;> first | rfl | exact ⟨rfl, rfl⟩

theorem abortAt_exposing (ctx : s.ctx c = some f) (phase : f.phase = .exposing) : AbortedAt c s (s.abortAt c) := by
  have stops : s.abortAt c =
      if s.inPhase (other c) .readout then
        s.releaseLines.setCtx c (some { f.exposedUntil s.now with
          outcome := some (f.outcome.getD .aborted), flags := { f.flags with discard := true }, expTimer := none
          endPending := true })
      else State.expect c (s.releaseLines.setCtx c (some { f.exposedUntil s.now with
          outcome := some (f.outcome.getD .aborted), flags := { f.flags with discard := true }, expTimer := none
          phase := .readout, endPending := false })) := by
    unfold State.abortAt State.enterReadout
    simp only [ctx, phase, updCtx_of_ctx (s := s.releaseLines) ctx, updCtx_setCtx, setCtx_inPhase_other, recordActual_eq]
    rfl
  have after : ∀ busy, f.afterAbort s.now busy = { f.exposedUntil s.now with
      outcome := some (f.outcome.getD .aborted)
      flags := { f.flags with discard := true }
      expTimer := none
      phase := if busy then .exposing else .readout
      endPending := busy } := fun busy => by rw [Frame.afterAbort, if_pos phase]
  have exposes : (f.exposedUntil s.now).phase = .exposing := phase
  rw [stops]
  cases busy : s.inPhase (other c) .readout with
  | true =>
    rw [if_pos rfl]
    refine ⟨?_, ?_, fun _ => ⟨?_, ?_, ?_⟩, fun _ => ?_, fun h => by simp [inPhase_of_ctx ctx, phase] at h, fun _ => ?_, ?_⟩
    · rw [setCtx_ctx_same, ctx, Option.map_some, busy, after, if_pos rfl, ← exposes]
    · rw [setCtx_ctx_other]
      rfl
    all_goals cases c <;> first | rfl | (rw [busy]; rfl)
  | false =>
    rw [if_neg (by decide)]
    refine ⟨?_, ?_, fun _ => ⟨?_, ?_, ?_⟩, fun _ => ?_, fun h => by simp [inPhase_of_ctx ctx, phase] at h, fun _ => ?_, ?_⟩
    · rw [ctx, Option.map_some, busy, after]
      cases c <;> rfl
    · cases c <;> rfl
    all_goals cases c <;> first | rfl | (rw [busy]; rfl)

theorem abortAt_ended (ctx : s.ctx c = some f) (phase : f.phase = .readout ∨ f.phase = .closing) :
    AbortedAt c s (s.abortAt c) := by
  rcases phase with phase | phase
  · have stays : s.abortAt c = s.setCtx c (some { f with
        outcome := some (f.outcome.getD .aborted), flags := { f.flags with discard := true } }) := by
      rw [← updCtx_of_ctx ctx fun f => { f with
        outcome := some (f.outcome.getD .aborted), flags := { f.flags with discard := true } }]
      unfold State.abortAt
      simp only [ctx, phase]
    rw [stays]
    exact setCtx_abortedAt ctx (by simp [phase]) (by simp [phase]) (by simp [Frame.afterAbort, phase])
  · have stays : s.abortAt c = s.setCtx c (some f) := by
      rw [setCtx_self ctx]
      unfold State.abortAt
      simp only [ctx, phase]
    rw [stays]
    exact setCtx_abortedAt ctx (by simp [phase]) (by simp [phase]) (by simp [Frame.afterAbort, phase])

theorem abortAt_abortedAt (c : CtxId) (cause : s.sched.endCause ≠ none) : AbortedAt c s (s.abortAt c) := by
  cases ctx : s.ctx c with
  | none => exact abortAt_free ctx
  | some f =>
    cases phase : f.phase with
    | reserving => exact abortAt_waiting ctx cause (.inl phase)
    | gap => exact abortAt_waiting ctx cause (.inr (.inl phase))
    | waitStart => exact abortAt_waiting ctx cause (.inr (.inr phase))
    | lead => exact abortAt_lead ctx cause phase
    | exposing => exact abortAt_exposing ctx phase
    | readout => exact abortAt_ended ctx (.inl phase)
    | closing => exact abortAt_ended ctx (.inr phase)

end AbortAt

/-! ## Both contexts -/

theorem afterAbort_phase_readout (now : Stamp) (busy : Bool) {f : Frame} (exposing : f.phase ≠ .exposing) :
    (f.afterAbort now busy).phase = .readout ↔ f.phase = .readout := by
  unfold Frame.afterAbort
  rw [if_neg exposing]
  by_cases readout : f.phase = .readout
  · simp [readout]
  · by_cases closing : f.phase = .closing <;> simp [readout, closing, Frame.closed]

/-- What the other context does in the meantime makes no difference to a frame that does not expose. -/
theorem afterAbort_of_not_exposing (now : Stamp) {f : Frame} (exposing : f.phase ≠ .exposing) (busy : Bool) :
    f.afterAbort now busy = f.afterAbort now false := by
  simp only [Frame.afterAbort, exposing, if_false]

/-- ABORT at both contexts, one after the other, where they keep apart (R29, R49). -/
theorem abortBoth {s a t : State} (apart : ¬ (s.beforeReadout .c0 = true ∧ s.beforeReadout .c1 = true))
    (first : AbortedAt .c0 s a) (second : AbortedAt .c1 a t) (now : a.now = s.now) (setup : a.ring.setup = s.ring.setup)
    (c : CtxId) :
    t.ctx c = (s.ctx c).map (Frame.afterAbort s.now (s.inPhase (other c) .readout)) ∧
      (s.inPhase c .exposing = true → t.seq.expose = false ∧ t.seq.strobe = false ∧
        t.recv = if s.inPhase (other c) .readout then s.recv else expecting c s) ∧
      (s.inPhase c .lead = true → t.seq.strobe = false) ∧
      (s.inPhase .c0 .exposing = false → s.inPhase .c1 .exposing = false →
        t.recv = s.recv ∧ t.seq.expose = s.seq.expose) := by
  have same1 : ∀ p, a.inPhase .c1 p = s.inPhase .c1 p := fun p => by
    rw [State.inPhase, show a.ctx .c1 = s.ctx .c1 from first.others, State.inPhase]
  have before : ∀ {c p}, s.inPhase c p = true → p ≠ .readout → p ≠ .closing → s.beforeReadout c = true := by
    intro c p is readout closing
    obtain ⟨f, ctx, phase⟩ := ctx_of_inPhase is
    simp [State.beforeReadout, ctx, phase, readout, closing]
  have quiet : s.inPhase .c0 .exposing = false → s.inPhase .c1 .exposing = false →
      t.recv = s.recv ∧ t.seq.expose = s.seq.expose := fun c0 c1 => by
    obtain ⟨recv, expose⟩ := first.kept c0
    obtain ⟨recv', expose'⟩ := second.kept ((same1 _).trans c1)
    exact ⟨recv'.trans recv, expose'.trans expose⟩
  cases c with
  | c0 =>
    have frame : t.ctx .c0 = a.ctx .c0 := second.others
    refine ⟨frame.trans first.frame, fun exposes => ?_, fun leads => second.strobeOff (first.lead leads), quiet⟩
    have idle : s.inPhase .c1 .exposing = false := by
      by_contra h
      exact apart ⟨before exposes (by decide) (by decide), before (Bool.not_eq_false _ ▸ h) (by decide) (by decide)⟩
    obtain ⟨expose, strobe, recv⟩ := first.exposing exposes
    obtain ⟨recv', expose'⟩ := second.kept ((same1 _).trans idle)
    exact ⟨expose'.trans expose, second.strobeOff strobe, recv'.trans recv⟩
  | c1 =>
    have ctx1 : a.ctx .c1 = s.ctx .c1 := first.others
    have frame := second.frame
    rw [ctx1, now] at frame
    have idle : s.inPhase .c1 .exposing = true → s.inPhase .c0 .exposing = false := fun exposes => by
      by_contra h
      exact apart ⟨before (Bool.not_eq_false _ ▸ h) (by decide) (by decide), before exposes (by decide) (by decide)⟩
    have busy : s.inPhase .c1 .exposing = true → a.inPhase .c0 .readout = s.inPhase .c0 .readout := fun exposes => by
      have frame := first.frame
      cases ctx : s.ctx .c0 with
      | none =>
        rw [ctx] at frame
        simp [State.inPhase, ctx, frame]
      | some g =>
        have exposing := idle exposes
        rw [inPhase_of_ctx ctx, decide_eq_false_iff_not] at exposing
        rw [ctx] at frame
        rw [inPhase_of_ctx ctx, inPhase_of_ctx frame, decide_eq_decide]
        exact afterAbort_phase_readout _ _ exposing
    refine ⟨?_, fun exposes => ?_, fun leads => second.lead ((same1 _).trans leads), quiet⟩
    · rw [frame]
      cases ctx : s.ctx .c1 with
      | none => rfl
      | some f =>
        by_cases exposing : f.phase = .exposing
        · rw [show s.inPhase (other .c1) .readout = a.inPhase (other .c1) .readout from
            (busy (by simp [inPhase_of_ctx ctx, exposing])).symm]
        · simp only [Option.map_some, afterAbort_of_not_exposing _ exposing]
    · obtain ⟨expose, strobe, recv⟩ := second.exposing ((same1 _).trans exposes)
      obtain ⟨recv', -⟩ := first.kept (idle exposes)
      have notice : expecting .c1 a = expecting .c1 s := by rw [expecting, now, setup, recv', expecting]
      rw [show a.inPhase (other .c1) .readout = s.inPhase (other .c1) .readout from busy exposes, recv', notice] at recv
      exact ⟨expose, strobe, recv⟩

/-! ## A stop mode applied (R22, Table 11) -/

theorem stopMode_apply_eq (m : StopMode) (k : StopKind) :
    m.apply k = if k = .abort ∨ m = .abort then .abort else .graceful := by
  cases m <;> cases k <;> rfl

theorem applyEndCause_eq {m : StopMode} (k : StopKind) {cause : Option EndCause} :
    applyEndCause m k cause =
      if m = .none then some (cause.getD (if k = .graceful then EndCause.stopped else .aborted))
      else if m = .graceful ∧ k = .abort ∧ cause = some .stopped then some .aborted else cause := by
  cases m <;> cases k <;> simp [applyEndCause]

/-- A stop mode applied to the active request (R22, R48, R49). -/
theorem applyStop_applied {s : State} (apart : s.framesApart) (form : s.stopForm) (k : StopKind) :
    StopApplied k s (s.applyStop k) := by
  have cause := applyEndCause_ne_none s.sched.stopMode k s.sched.endCause form
  have mode := stopMode_apply_eq s.sched.stopMode k
  have end_ : applyEndCause s.sched.stopMode k s.sched.endCause = _ := applyEndCause_eq k
  unfold State.applyStop
  dsimp only
  by_cases same : s.sched.stopMode = s.sched.stopMode.apply k
  · rw [if_pos same]
    exact ⟨mode, end_, fun _ => ⟨rfl, rfl⟩, fun changed => absurd same changed, fun changed => absurd same changed⟩
  rw [if_neg same]
  have applied : ∃ v : State, v = { s with sched := { s.sched with
      stopMode := s.sched.stopMode.apply k
      endCause := applyEndCause s.sched.stopMode k s.sched.endCause } } := ⟨_, rfl⟩
  obtain ⟨v, hv⟩ := applied
  have causes : v.sched.endCause ≠ none := by rw [hv]; exact cause
  cases k with
  | graceful =>
    dsimp only
    rw [← hv, gracefulAt_eq .c0 causes, gracefulAt_eq .c1 (by rw [setCtx_sched]; exact causes)]
    subst hv
    refine ⟨mode, end_, fun h => absurd h same, fun _ _ => ⟨fun c => ?_, rfl, rfl, rfl⟩, fun _ h => absurd h (by decide)⟩
    cases c <;> rfl
  | abort =>
    dsimp only
    rw [← hv]
    have first := abortAt_abortedAt .c0 causes
    have second := abortAt_abortedAt (s := v.abortAt .c0) .c1 (by rw [first.sched]; exact causes)
    have frame := abortAt_frame .c0 v
    have sched := second.sched.trans first.sched
    have both := abortBoth (s := v) (by subst hv; exact apart.1) first second (frame.get .time) (frame.get .setup)
    generalize (v.abortAt .c0).abortAt .c1 = t at sched both
    subst hv
    exact ⟨by rw [sched]; exact mode, by rw [sched]; exact end_, fun h => absurd (h.trans (by rw [sched])) same,
      fun _ h => absurd h (by decide), fun _ _ => both⟩

end Sys2Proof.Machine
end

section
/-! PROOFS of O36 and O37: STOP by tag and STOP of all requests. -/

set_option Elab.async false

namespace Sys2Proof.Machine

open Sys2Proof

/-! ## What a stop left, with changes elsewhere before or behind it -/

/-- The pieces of the Exposure Sequencer. -/
def sequencerParts : List Part := [.contexts, .pointer, .latch, .missed, .lines, .trigger]

theorem seq_of_unchanged {s t : State} {ps : List Part} (frame : unchangedBut ps s t)
    (apart : (sequencerParts.all fun p => !ps.contains p) = true := by decide) : t.seq = s.seq := by
  simp only [sequencerParts, List.all_cons, List.all_nil, Bool.and_true, Bool.and_eq_true, Bool.not_eq_true'] at apart
  obtain ⟨contexts, pointer, latch, missed, lines, trigger⟩ := apart
  have contexts := frame.get .contexts contexts
  have lines := frame.get .lines lines
  have trigger := frame.get .trigger trigger
  simp only [Part.same, Prod.mk.injEq] at contexts lines trigger
  obtain ⟨ctx0, ctx1⟩ := contexts
  obtain ⟨expose, strobe⟩ := lines
  obtain ⟨trigger, pin, hold⟩ := trigger
  calc t.seq = ⟨t.seq.ctx0, t.seq.ctx1, t.seq.next, t.seq.latch, t.seq.missed, t.seq.expose, t.seq.strobe, t.seq.trigger,
        t.seq.pin, t.seq.hold⟩ := rfl
    _ = s.seq := by
      rw [ctx0, ctx1, show t.seq.next = s.seq.next from frame.get .pointer pointer,
        show t.seq.latch = s.seq.latch from frame.get .latch latch,
        show t.seq.missed = s.seq.missed from frame.get .missed missed, expose, strobe, trigger, pin, hold]

/-- The pieces that a stop reads at the contexts, the receiver and the active request. -/
def stopReads : List Part := sequencerParts ++ [.stop, .receiver, .stray]

section Around

variable {u : Setup} {k : StopKind} {cs : List Completion} {s t v : State} {ps : List Part}

theorem StopApplied.preceded (frame : unchangedBut ps s t) (h : StopApplied k t v)
    (reads : (stopReads.all fun p => !ps.contains p) = true := by decide)
    (time : ps.contains .time = false := by decide) (setup : ps.contains .setup = false := by decide) :
    StopApplied k s v := by
  rw [stopReads, List.all_append, Bool.and_eq_true] at reads
  obtain ⟨sequencer, others⟩ := reads
  simp only [List.all_cons, List.all_nil, Bool.and_true, Bool.and_eq_true, Bool.not_eq_true'] at others
  obtain ⟨stop, receiver, stray⟩ := others
  have stop := frame.get .stop stop
  simp only [Part.same, Prod.mk.injEq] at stop
  unfold StopApplied expecting State.inPhase State.ctx at h ⊢
  rwa [seq_of_unchanged frame sequencer, recv_of_unchanged frame receiver stray, stop.1, stop.2,
    show t.now = s.now from frame.get .time time, show t.ring.setup = s.ring.setup from frame.get .setup setup] at h

theorem StopApplied.followed (h : StopApplied k s t) (frame : unchangedBut ps t v)
    (reads : (stopReads.all fun p => !ps.contains p) = true := by decide) : StopApplied k s v := by
  rw [stopReads, List.all_append, Bool.and_eq_true] at reads
  obtain ⟨sequencer, others⟩ := reads
  simp only [List.all_cons, List.all_nil, Bool.and_true, Bool.and_eq_true, Bool.not_eq_true'] at others
  obtain ⟨stop, receiver, stray⟩ := others
  have stop := frame.get .stop stop
  simp only [Part.same, Prod.mk.injEq] at stop
  unfold StopApplied State.ctx at h ⊢
  rw [seq_of_unchanged frame sequencer, recv_of_unchanged frame receiver stray, stop.1, stop.2]
  exact h

theorem RecordTaken.followed (h : RecordTaken u s t) (frame : unchangedBut ps t v)
    (ring : ps.contains .ctlRing = false := by decide) : RecordTaken u s v := by
  have ring := frame.get .ctlRing ring
  simp only [Part.same, Prod.mk.injEq] at ring
  unfold RecordTaken
  rw [ring.1, ring.2]
  exact h

theorem RecordDone.followed (h : RecordDone u cs s t) (frame : unchangedBut ps t v)
    (apart : ([Part.issued, .slots, .coalescing, .cause].all fun p => !ps.contains p) = true := by decide)
    (ring : ps.contains .ctlRing = false := by decide) (engine : ps.contains .engine = false := by decide) :
    RecordDone u cs s v := by
  obtain ⟨taken, posts, next⟩ := h
  exact ⟨taken.followed frame ring, posts.followed frame apart, (frame.get .engine engine).trans next⟩

theorem CaptureTested.followed (h : CaptureTested u s t) (frame : unchangedBut ps t v)
    (apart : ([Part.capRing, .partState, .flushMark, .queue, .capCredit].all fun p => !ps.contains p) = true := by decide) :
    CaptureTested u s v := by
  simp only [List.all_cons, List.all_nil, Bool.and_true, Bool.and_eq_true, Bool.not_eq_true'] at apart
  obtain ⟨ring, part, mark, queue, credit⟩ := apart
  have ring := frame.get .capRing ring
  simp only [Part.same, Prod.mk.injEq] at ring
  unfold CaptureTested
  rw [ring.1, ring.2, show v.link.part = t.link.part from frame.get .partState part,
    show v.sched.flushMark = t.sched.flushMark from frame.get .flushMark mark,
    show v.sched.queue = t.sched.queue from frame.get .queue queue,
    show v.sched.credit = t.sched.credit from frame.get .capCredit credit]
  exact h

end Around

/-! ## A STOP of all requests (R23) -/

/-- Entries behind the head with no mark become FLUSHED (R23). -/
def flushedBehind (queue : List Entry) : List Entry :=
  queue.head?.toList ++ queue.tail.map fun e => if e.mark = .none then { e with mark := .flushed } else e

/-- The flush mark is recorded and the entries behind the head are marked (R23). -/
def State.stopMarked (s : State) : State :=
  { s.recordMark with sched := { s.recordMark.sched with queue := flushedBehind s.sched.queue } }

theorem stopMarked_frame (s : State) : unchangedBut [.flushMark, .queue] s s.stopMarked := by
  intro p hp; cases p <;> first | rfl | exact absurd (by decide) hp

theorem stopAllRequests_eq (k : StopKind) (s : State) :
    s.stopAllRequests k = if s.liveRequest.isSome then s.stopMarked.applyStop k else s.stopMarked := by
  unfold State.stopAllRequests State.stopMarked
  cases queue : s.sched.queue with
  | nil => simp [State.recordMark, State.liveRequest, queue, flushedBehind]
  | cons e rest =>
    have live : ∀ q, ({ s.recordMark with sched := { s.recordMark.sched with queue := e :: q } } : State).liveRequest =
        s.liveRequest := fun q => by simp [State.liveRequest, queue]
    simp only [State.recordMark, queue, flushedBehind, List.head?_cons, Option.toList_some, List.tail_cons,
      List.singleton_append] at live ⊢
    rw [live]
    rfl

theorem stopAllRequests_queue (k : StopKind) (s : State) :
    (s.stopAllRequests k).sched.queue = flushedBehind s.sched.queue := by
  rw [stopAllRequests_eq]
  split
  · exact (applyStop_frame k _).get .queue
  · rfl

theorem stopAllRequests_flushMark (k : StopKind) (s : State) : (s.stopAllRequests k).sched.flushMark =
    if s.ring.capTail.toNat = s.ring.capHead then none else some s.ring.capTail.toNat := by
  rw [stopAllRequests_eq]
  split
  · exact (applyStop_frame k _).get .flushMark
  · rfl

/-- The mode is applied to the active request where it is neither REJECTED nor marked (R23). -/
theorem stopAllRequests_applied {k : StopKind} {s : State} (apart : s.framesApart) (form : s.stopForm)
    (live : s.liveRequest.isSome = true) : StopApplied k s (s.stopAllRequests k) := by
  have keeps : Keeps s s.stopMarked :=
    (Keeps.of_unchanged (recordMark_frame s)).trans (queue_keeps (setQueue_frame _ s.recordMark) fun h => by
      cases queue : s.sched.queue with
      | nil => simp [State.recordMark, State.liveRequest, queue] at h
      | cons e rest => simpa [State.stopMarked, State.recordMark, State.liveRequest, queue, flushedBehind] using h)
  rw [stopAllRequests_eq, if_pos live]
  exact (applyStop_applied (keeps.1 apart) (keeps.2 form) k).preceded (stopMarked_frame s)

theorem stopAllRequests_idle {k : StopKind} {s : State} (live : s.liveRequest.isSome = false) :
    unchangedBut [.flushMark, .queue] s (s.stopAllRequests k) := by
  rw [stopAllRequests_eq, if_neg (by simp [live])]
  exact stopMarked_frame s

/-- A record in hand that completes leaves no FLUSH_STAGED in hand, and a quiet port stays quiet. -/
theorem finishRecord_quiet {s v : State} {ps : List Part} (quiet : s.portQuiet) (frame : unchangedBut ps s v)
    (r : ControlResult) (port : ps.contains .port = false := by decide) (waits : ps.contains .waits = false := by decide) :
    (v.finishRecord r).portQuiet := by
  refine ⟨quietPort_of_unchanged (quietPort_of_unchanged quiet.1 frame port waits) (finishRecord_frame r v), ?_⟩
  unfold State.noFlushRecord
  rw [finishRecord_engine]
  split <;> rfl

theorem recordTaken_keeps (u : Setup) (s : State) : Keeps s (s.recordTaken u) := .of_unchanged (recordTaken_frame u s)

/-- Settles O37: the mark and the queue of `stopMarked`, the mode by `applyStop_applied`, then the record and R3. -/
theorem stopAll : Obligations.StopAll := by
  unfold Obligations.StopAll
  intro u tag request k s reading quiet apart form
  let r : ControlResult := { kind := kindStop, tag := tag, status := .done }
  let v := (s.recordTaken u).stopAllRequests k
  have taken := recordTaken_frame u s
  have stopped : unchangedBut (.flushMark :: .queue :: stopParts) (s.recordTaken u) v := stopAllRequests_frame k _
  have frame : unchangedBut ([.ctlRing, .engine, .issued] ++ .flushMark :: .queue :: stopParts) s v :=
    (taken.widen _).trans (stopped.widen _)
  have finished := finishRecord_frame r v
  have tested := captureTest_frame (v.finishRecord r)
  have exec_eq : exec (.stopAll tag request k) s = .next ((v.finishRecord r).captureTest).tidyInterval := by
    rw [← follow_quiet _ (portQuiet_of_unchanged (finishRecord_quiet quiet frame r) tested)]
    show Host.Outcome.next (s.takeRecord _) = _
    rw [takeRecord_recordTaken reading]
  have done : RecordDone u [.control r] s (v.finishRecord r) := by
    have takenBy : RecordTaken u s v := RecordTaken.followed (t := s.recordTaken u) ⟨rfl, rfl⟩ stopped
    exact RecordDone.of_finish reading takenBy ((recordTaken_posts u s).followed stopped) frame r
  have behind : unchangedBut [.capCredit, .capRing, .interval] (v.finishRecord r) ((v.finishRecord r).captureTest).tidyInterval :=
    (tested.widen _).trans ((tidyInterval_frame _).widen _)
  have after : unchangedBut (recordParts ++ [.capCredit, .capRing, .interval]) v ((v.finishRecord r).captureTest).tidyInterval :=
    (finished.widen _).trans (behind.widen _)
  refine ⟨_, exec_eq, done.followed behind, ?_, ?_, fun live => ?_, fun live => ?_, ?_, timedBut_tidyInterval ?_⟩
  · exact (after.get .flushMark).trans (stopAllRequests_flushMark k _)
  · exact (after.get .queue).trans (stopAllRequests_queue k _)
  · exact ((stopAllRequests_applied ((recordTaken_keeps u s).1 apart) ((recordTaken_keeps u s).2 form) live).preceded
      taken).followed after
  · have idle := stopAllRequests_idle (k := k) (s := s.recordTaken u) live
    have all : unchangedBut (.flushMark :: .queue :: recordParts ++ [.capCredit, .capRing, .interval]) s
        ((v.finishRecord r).captureTest).tidyInterval := (taken.widen _).trans ((idle.widen _).trans (after.widen _))
    have stop := all.get .stop
    simp only [Part.same, Prod.mk.injEq] at stop
    exact ⟨seq_of_unchanged all, recv_of_unchanged all, stop.1, stop.2⟩
  · have held : (v.finishRecord r).ring.setup = some u :=
      (finished.get .setup).trans ((frame.get .setup).trans reading.2)
    have before : unchangedBut (.flushMark :: .queue :: stopParts ++ recordParts) s (v.finishRecord r) :=
      (frame.widen _).trans (finished.widen _)
    exact ((captureTest_tested u _ held).of_unchanged before).followed (tidyInterval_frame _)
  · exact (frame.widen _).trans ((finished.widen _).trans (tested.widen _))

/-! ## A STOP by tag (R21) -/

/-- An entry that a STOP by tag may mark (R21). -/
def mayStop (tag : Word) (e : Entry) : Prop := e.tag = tag ∧ e.request.isSome = true ∧ e.mark = .none

theorem eligible_iff (request : Word) (s : State) (i : Nat) (e : Entry) :
    eligible request s i e = true ↔ mayStop request e ∧ (i ≠ 0 ∨ s.sched.stopMode = .none) := by
  simp [eligible, mayStop, and_assoc]

theorem stopQueued_none {tag : Word} {l : List Entry} (h : ∀ (i : Nat) (e : Entry), l[i]? = some e → ¬ mayStop tag e) :
    stopQueued tag l = none := by
  induction l with
  | nil => rfl
  | cons e l ih =>
    have unmarked : ¬ mayStop tag e := h 0 e rfl
    unfold mayStop at unmarked
    rw [stopQueued, if_neg unmarked, ih fun i e' at_ => h (i + 1) e' at_]
    rfl

/-- The oldest entry that may be stopped is marked STOPPED (R21). -/
theorem stopQueued_some {tag : Word} {l : List Entry} {i : Nat} {e : Entry} (at_ : l[i]? = some e) (may : mayStop tag e)
    (first : ∀ (j : Nat) (d : Entry), j < i → l[j]? = some d → ¬ mayStop tag d) :
    stopQueued tag l = some (l.set i { e with mark := .stopped }) := by
  induction l generalizing i with
  | nil => cases at_
  | cons d l ih =>
    cases i with
    | zero =>
      obtain rfl : d = e := by simpa using at_
      exact if_pos may
    | succ i =>
      have unmarked : ¬ mayStop tag d := first 0 d (Nat.succ_pos i) rfl
      unfold mayStop at unmarked
      rw [stopQueued, if_neg unmarked,
        ih at_ fun j d' before there => first (j + 1) d' (Nat.succ_lt_succ before) there]
      rfl

section ByTag

variable {request : Word} {s : State} {k : StopKind}

theorem head_iff {e : Entry} {rest : List Entry} (queue : s.sched.queue = e :: rest) :
    (e.tag = request ∧ s.liveRequest.isSome = true ∧ s.sched.stopMode = .none) ↔ eligible request s 0 e = true := by
  rw [eligible_iff]
  simp only [State.liveRequest, queue, List.head?_cons, Option.bind_some, mayStop]
  by_cases mark : e.mark = .none <;> simp [mark, and_assoc]

theorem stopByTag_none (h : ∀ i e, s.sched.queue[i]? = some e → eligible request s i e = false) :
    s.stopByTag request k = none := by
  unfold State.stopByTag
  cases queue : s.sched.queue with
  | nil => rfl
  | cons e rest =>
    rw [queue] at h
    have behind : stopQueued request rest = none := stopQueued_none fun i d at_ may => by
      have := (eligible_iff request s (i + 1) d).mpr ⟨may, .inl (Nat.succ_ne_zero i)⟩
      rw [h (i + 1) d at_] at this
      cases this
    simp only [head_iff queue, h 0 e rfl, behind, Bool.false_eq_true, if_false, Option.map_none]

theorem stopByTag_head {e : Entry} (at_ : s.sched.queue[0]? = some e) (may : eligible request s 0 e = true) :
    s.stopByTag request k = some (s.applyStop k) := by
  unfold State.stopByTag
  cases queue : s.sched.queue with
  | nil => simp [queue] at at_
  | cons d rest =>
    obtain rfl : d = e := by simpa [queue] using at_
    simp only [head_iff queue, may, if_true]

theorem stopByTag_behind {i : Nat} {e : Entry} (at_ : s.sched.queue[i + 1]? = some e)
    (may : eligible request s (i + 1) e = true)
    (first : ∀ j d, j < i + 1 → s.sched.queue[j]? = some d → eligible request s j d = false) :
    s.stopByTag request k =
      some { s with sched := { s.sched with queue := s.sched.queue.set (i + 1) { e with mark := .stopped } } } := by
  unfold State.stopByTag
  cases queue : s.sched.queue with
  | nil => simp [queue] at at_
  | cons d rest =>
    rw [queue] at at_ first
    have behind : stopQueued request rest = some (rest.set i { e with mark := .stopped }) :=
      stopQueued_some at_ ((eligible_iff _ _ _ _).mp may).1 fun j d before there may => by
        have := (eligible_iff request s (j + 1) d).mpr ⟨may, .inl (Nat.succ_ne_zero j)⟩
        rw [first (j + 1) d (Nat.succ_lt_succ before) there] at this
        cases this
    simp only [head_iff queue, first 0 d (Nat.succ_pos i) rfl, behind, Bool.false_eq_true, if_false, Option.map_some,
      List.set_cons_succ]

end ByTag

/-- A record that carried out a stop is finished, and a quiet port stays as it is. -/
theorem stopRecord_done {u : Setup} {s w : State} (reading : s.readingControl u) (quiet : s.portQuiet)
    (stopped : unchangedBut (.queue :: stopParts) (s.recordTaken u) w) (r : ControlResult) :
    (w.finishRecord r).follow = (w.finishRecord r).tidyInterval ∧
      RecordDone u [.control r] s (w.finishRecord r).tidyInterval := by
  have frame : unchangedBut ([.ctlRing, .engine, .issued] ++ .queue :: stopParts) s w :=
    ((recordTaken_frame u s).widen _).trans (stopped.widen _)
  have taken : RecordTaken u s w := RecordTaken.followed (t := s.recordTaken u) ⟨rfl, rfl⟩ stopped
  exact ⟨follow_quiet _ (finishRecord_quiet quiet frame r),
    (RecordDone.of_finish reading taken ((recordTaken_posts u s).followed stopped) frame r).tidyInterval⟩

/-- What a STOP by tag leaves unchanged. -/
theorem stopRecord_frame {u : Setup} {s w : State} {ps : List Part} (stopped : unchangedBut ps (s.recordTaken u) w)
    (r : ControlResult) (interval : (ps ++ recordParts).contains .interval = false) :
    timedBut (ps ++ recordParts) s (w.finishRecord r).tidyInterval := by
  refine timedBut_tidyInterval ?_ interval
  refine ((recordTaken_frame u s).mono fun p hp => ?_).trans ((stopped.mono fun p hp => ?_).trans
    ((finishRecord_frame r w).mono fun p hp => ?_))
  · exact List.mem_append_right _ (by revert p; decide)
  · exact List.mem_append_left _ hp
  · exact List.mem_append_right _ hp

/-- Settles O36, by the place of the oldest eligible entry: none, at the head, or behind it. -/
theorem stopByTag : Obligations.StopByTag := by
  unfold Obligations.StopByTag
  intro u tag request k s reading quiet apart
  have taken := recordTaken_frame u s
  have exec_eq : exec (.stopTag tag request k) s = .next (match (s.recordTaken u).stopByTag request k with
      | none => (s.recordTaken u).finishRecord { kind := kindStop, tag := tag, status := .notFound }
      | some w => (w.finishRecord { kind := kindStop, tag := tag, status := .done }).follow) := by
    show Host.Outcome.next (s.takeRecord _) = _
    exact congrArg Host.Outcome.next (takeRecord_recordTaken reading _)
  rw [exec_eq]
  refine ⟨_, rfl, fun none_ => ?_, fun i e at_ may first => ?_⟩
  · rw [stopByTag_none (s := s.recordTaken u) none_]
    exact ⟨recordFinished_done reading _, recordFinished_frame u _ s⟩
  · cases i with
    | zero =>
      rw [stopByTag_head (s := s.recordTaken u) at_ may]
      have form : (s.recordTaken u).stopForm := fun mode =>
        absurd (((eligible_iff _ _ _ _).mp may).2.resolve_left fun h => h rfl) mode
      have stopped := applyStop_frame k (s.recordTaken u)
      have applied := applyStop_applied ((recordTaken_keeps u s).1 apart) form k
      obtain ⟨follow, done⟩ := stopRecord_done reading quiet (stopped.widen _)
        { kind := kindStop, tag := tag, status := .done }
      dsimp only
      rw [follow]
      have behind := ((finishRecord_frame { kind := kindStop, tag := tag, status := .done } _).widen _).trans
        ((tidyInterval_frame ((((s.recordTaken u).applyStop k)).finishRecord
          { kind := kindStop, tag := tag, status := .done })).widen (.interval :: recordParts))
      exact ⟨done, fun h => absurd h (lt_irrefl 0), fun _ => ⟨(applied.preceded taken).followed behind, stopRecord_frame (stopped.widen stopAppliedParts) _ (by decide)⟩⟩
    | succ i =>
      rw [stopByTag_behind (s := s.recordTaken u) at_ may first]
      have marked := setQueue_frame ((s.recordTaken u).sched.queue.set (i + 1) { e with mark := .stopped }) (s.recordTaken u)
      obtain ⟨follow, done⟩ := stopRecord_done reading quiet (marked.widen _)
        { kind := kindStop, tag := tag, status := .done }
      dsimp only
      rw [follow]
      refine ⟨done, fun _ => ⟨?_, stopRecord_frame marked _ (by decide)⟩, fun h => absurd h (Nat.succ_ne_zero i)⟩
      exact ((tidyInterval_frame _).get .queue).trans ((finishRecord_frame _ _).get .queue)

end Sys2Proof.Machine
end

section
/-! PROOFS of O9 and O17: entry to DRAINING, and the Setup Block taken up. -/

set_option Elab.async false

namespace Sys2Proof.Machine

open Sys2Proof

/-! ## Finishing a record and discarding the staged entries -/

/-- Finishing a record begins no read: the engine is IDLE when it tests R133. -/
theorem finishRecord_frame_idle (r : ControlResult) (s : State) : unchangedBut (.engine :: postParts) s (s.finishRecord r) := by
  intro p hp
  by_cases ring : p = .ctlRing
  · subst ring
    have handed := (handOver_frame (.control r) s).get .ctlRing
    simp only [Part.same] at handed ⊢
    rw [finishRecord_ring]
    exact handed
  · exact finishRecord_frame r s p (by simpa [recordParts, ring] using hp)

theorem discardWaiting_posts {u : Setup} {s : State} (held : s.ring.setup = some u) :
    Posts u [] ((s.sensor.staged.filter fun e => !e.inProgress).map fun e =>
      .control { kind := 0x05, tag := e.tag, status := .discarded }) s s.discardWaiting := by
  unfold State.discardWaiting
  have cleared : unchangedBut [.staged] s
      { s with sensor := { s.sensor with staged := s.sensor.staged.filter Staged.inProgress } } := by
    intro p hp; cases p <;> first | rfl | exact absurd (by decide) hp
  exact Posts.preceded cleared (foldHandOver_posts u _ (fun e => .control (stagedResult e .discarded none)) _ held)

theorem noFlushRecord_of_none {s : State} (h : s.flushRecord = none) : s.noFlushRecord := by
  unfold State.flushRecord at h
  unfold State.noFlushRecord
  cases job : s.engine.job with
  | none => rfl
  | some j =>
    rw [job, Option.bind_some] at h
    refine decide_eq_true fun flush => ?_
    rw [if_pos flush] at h
    cases h

theorem flushRecord_eq_some {s : State} {tag : Word} (h : s.flushRecord = some tag) :
    s.engine.job = some { tag := tag, work := .flush } := by
  obtain ⟨tag', job⟩ := flushRecord_job (s := s) (by rw [h]; rfl)
  rw [State.flushRecord, job, Option.bind_some, if_pos rfl] at h
  rw [job, show tag' = tag from Option.some.inj h]

/-- An IN_PROGRESS entry is of a flush in progress (R117). -/
theorem flush_of_inProgress {s : State} (form : s.flushForm) (h : s.sensor.staged.filter Staged.inProgress ≠ []) :
    s.sensor.flush ≠ none := by
  obtain ⟨behind, front, -⟩ := form
  obtain ⟨e, rest, filtered⟩ := List.exists_cons_of_ne_nil h
  obtain ⟨mem, progress⟩ := List.mem_filter.mp (filtered ▸ List.mem_cons_self : e ∈ s.sensor.staged.filter Staged.inProgress)
  cases staged : s.sensor.staged with
  | nil => rw [staged] at mem; cases mem
  | cons d l =>
    rw [staged] at mem behind front
    obtain rfl | mem := List.mem_cons.mp mem
    · exact Option.isSome_iff_ne_none.mp (front e rfl progress)
    · rw [behind e mem] at progress
      cases progress

/-! ## Entry to DRAINING (R176) -/

/-- DRAINING entered at the part state alone. -/
def State.drainBegun (s : State) : State := { s with link := { s.link with enable := false, part := .draining } }

theorem drainBegun_frame (s : State) : unchangedBut [.enable, .partState] s s.drainBegun := by
  intro p hp; cases p <;> first | rfl | exact absurd (by decide) hp

/-- Every block but the Sensor Link has entered DRAINING. -/
def State.drainEntered (s : State) : State :=
  (s.stopAllRequests .abort).discardWaiting.engineDrain.captureTest

theorem drainEntered_frame (s : State) : unchangedBut ([.flushMark, .queue, .staged, .engine, .capCredit, .capRing] ++ stopParts ++ postParts) s
    s.drainEntered :=
  ((stopAllRequests_frame _ _).widen _).trans (((discardWaiting_frame _).widen _).trans
    (((engineDrain_frame _).widen _).trans ((captureTest_frame _).widen _)))

section Entered

variable {u : Setup} {s : State}

theorem drainEntered_posts (held : s.ring.setup = some u) :
    Posts u [] ((s.sensor.staged.filter fun e => !e.inProgress).map fun e =>
      .control { kind := 0x05, tag := e.tag, status := .discarded }) s s.drainEntered := by
  have stopped := stopAllRequests_frame .abort s
  have posts := discardWaiting_posts (s := s.stopAllRequests .abort) ((stopped.get .setup).trans held)
  rw [show (s.stopAllRequests .abort).sensor.staged = s.sensor.staged from stopped.get .staged] at posts
  have after : unchangedBut [.engine, .capCredit, .capRing] (s.stopAllRequests .abort).discardWaiting s.drainEntered :=
    ((engineDrain_frame _).widen _).trans ((captureTest_frame _).widen _)
  exact (posts.preceded stopped).followed after

theorem drainEntered_staged : s.drainEntered.sensor.staged = s.sensor.staged.filter Staged.inProgress := by
  have after : unchangedBut [.engine, .capCredit, .capRing] (s.stopAllRequests .abort).discardWaiting s.drainEntered :=
    ((engineDrain_frame _).widen _).trans ((captureTest_frame _).widen _)
  have staged := after.get .staged
  simp only [Part.same] at staged
  rw [staged, discardWaiting_staged, show (s.stopAllRequests .abort).sensor.staged = s.sensor.staged from
    (stopAllRequests_frame .abort s).get .staged]

/-- What the blocks do behind the stop of all requests. -/
theorem drainEntered_behind : unchangedBut ([.staged, .engine, .capCredit, .capRing] ++ postParts) (s.stopAllRequests .abort) s.drainEntered :=
  ((discardWaiting_frame _).widen _).trans (((engineDrain_frame _).widen _).trans ((captureTest_frame _).widen _))

theorem drainEntered_engine : s.drainEntered.engine =
    if s.engine.mode = .waitCredit ∧ s.ring.ctlRead = none then { s.engine with mode := .idle, credit := .none }
    else s.engine := by
  have before : unchangedBut (.flushMark :: .queue :: stopParts ++ .staged :: postParts) s (s.stopAllRequests .abort).discardWaiting :=
    ((stopAllRequests_frame _ _).widen _).trans ((discardWaiting_frame _).widen _)
  have engine : (s.stopAllRequests .abort).discardWaiting.engine = s.engine := before.get .engine
  have ring := before.get .ctlRing
  simp only [Part.same, Prod.mk.injEq] at ring
  calc s.drainEntered.engine = (s.stopAllRequests .abort).discardWaiting.engineDrain.engine :=
        (captureTest_frame _).get .engine
    _ = _ := by
      unfold State.engineDrain
      rw [engine, ring.2]
      split
      · rw [← engine]
      · exact engine

theorem drainEntered_tested (held : s.ring.setup = some u) : CaptureTested u s s.drainEntered := by
  have before : unchangedBut (.flushMark :: .queue :: stopParts ++ .staged :: .engine :: postParts) s
      (s.stopAllRequests .abort).discardWaiting.engineDrain :=
    ((stopAllRequests_frame _ _).widen _).trans (((discardWaiting_frame _).widen _).trans ((engineDrain_frame _).widen _))
  exact (captureTest_tested u _ ((before.get .setup).trans held)).of_unchanged before

/-- The FLUSH_STAGED that entry to DRAINING completes: one that finds the list empty and no flush in progress (R120). -/
def State.drainFinished (s : State) : Option Word :=
  if s.sensor.staged.filter Staged.inProgress = [] ∧ s.sensor.flush = none then s.flushRecord else none

/-- At the Sensor Link entry to DRAINING completes a FLUSH_STAGED that has nothing left to wait for. -/
theorem drainOn_eq (held : s.ring.setup = some u) (draining : s.link.part = .draining) (quiet : s.sensor.port ≠ none ∨ s.noneWaits)
    (form : s.flushForm) : ∃ x, s.drainOn = x.tidyInterval ∧ unchangedBut (.engine :: postParts) s.drainEntered x ∧
      Posts u [] (s.drainFinished.toList.map flushDone) s.drainEntered x ∧
      x.engine = if s.drainFinished.isSome then { mode := .idle, credit := .none, job := none } else s.drainEntered.engine := by
  have frame := drainEntered_frame s
  have quietEntered := quietPort_of_unchanged quiet frame
  have staged := drainEntered_staged (s := s)
  have flush : s.drainEntered.sensor.flush = s.sensor.flush := frame.get .flush
  have job : s.drainEntered.engine.job = s.engine.job := by
    rw [drainEntered_engine]
    split <;> rfl
  have drainOn_of {x : State} (checked : s.drainEntered.checkFlushRecord = x) (left : x.sensor.port ≠ none ∨ x.noneWaits) :
      s.drainOn = x.tidyInterval := by
    show s.drainEntered.checkFlushRecord.arbitrate.tidyInterval = _
    rw [checked, arbitrate_none left]
  have none_ (finished : s.drainFinished = none) (checked : s.drainEntered.checkFlushRecord = s.drainEntered) :
      ∃ x, s.drainOn = x.tidyInterval ∧ unchangedBut (.engine :: postParts) s.drainEntered x ∧
        Posts u [] (s.drainFinished.toList.map flushDone) s.drainEntered x ∧
        x.engine = if s.drainFinished.isSome then { mode := .idle, credit := .none, job := none } else s.drainEntered.engine := by
    rw [finished]
    exact ⟨_, drainOn_of checked quietEntered, .refl _ _, ⟨by simp [runWrites], rfl, rfl, rfl⟩, rfl⟩
  cases record : s.flushRecord with
  | none =>
    refine none_ (by rw [State.drainFinished, record, ite_self]) (checkFlushRecord_other _ ?_)
    have other := noFlushRecord_of_none record
    unfold State.noFlushRecord at other ⊢
    rwa [job]
  | some tag =>
    have job := job.trans (flushRecord_eq_some record)
    by_cases empty : s.sensor.staged.filter Staged.inProgress = [] ∧ s.sensor.flush = none
    · have finished : s.drainFinished = some tag := by rw [State.drainFinished, if_pos empty, record]
      have finish := finishRecord_frame_idle { kind := 0x08, tag := tag, status := .done } s.drainEntered
      rw [finished]
      refine ⟨_, drainOn_of (checkFlushRecord_done job (staged.trans empty.1) (flush.trans empty.2))
        (quietPort_of_unchanged quietEntered finish), finish, finishRecord_posts ((frame.get .setup).trans held) _, ?_⟩
      have part : s.drainEntered.link.part = .draining := (frame.get .partState).trans draining
      rw [finishRecord_engine, part]
      rfl
    · have kept : s.sensor.staged.filter Staged.inProgress ≠ [] → s.drainEntered.sensor.flush ≠ none := fun left =>
        flush ▸ flush_of_inProgress form left
      refine none_ (by rw [State.drainFinished, if_neg empty]) (checkFlushRecord_waits job ?_ ?_)
      · exact fun nothing gone => empty ⟨staged ▸ nothing, flush ▸ gone⟩
      · exact fun left => flushCondition_of_flush (kept (staged ▸ left))

/-- The engine behind entry to DRAINING (R120, R142). -/
theorem drainEntered_engine_finished {finished : Option Word} {e : Engine}
    (engine : e = if finished.isSome then { mode := .idle, credit := .none, job := none } else s.drainEntered.engine) :
    e = if finished.isSome ∨ (s.engine.mode = .waitCredit ∧ s.ring.ctlRead = none) then
        { s.engine with
          mode := EngineMode.idle
          credit := CreditState.none
          job := if finished.isSome then none else s.engine.job }
      else s.engine := by
  rw [engine, drainEntered_engine]
  cases finished with
  | none => simp only [Option.isSome_none, Bool.false_eq_true, if_false, false_or]
  | some tag => simp only [Option.isSome_some, if_true, true_or]

/-- What entry to DRAINING does behind the stop of all requests. -/
theorem drained_behind {x : State} (sensor : unchangedBut (.engine :: postParts) s.drainEntered x) :
    unchangedBut (.interval :: [.staged, .engine, .capCredit, .capRing] ++ postParts) (s.stopAllRequests .abort) x.tidyInterval :=
  (drainEntered_behind.widen _).trans ((sensor.widen _).trans ((tidyInterval_frame x).widen _))

/-- What entry to DRAINING may change. -/
theorem drained_frame {x : State} (sensor : unchangedBut (.engine :: postParts) s.drainBegun.drainEntered x) :
    timedBut ([.enable, .partState, .staged, .queue, .stop, .flushMark, .capCredit, .capRing, .contexts,
        .lines, .receiver, .engine] ++ postParts) s x.tidyInterval :=
  timedBut_tidyInterval (((drainBegun_frame s).widen _).trans (((drainEntered_frame s.drainBegun).widen _).trans
    (sensor.widen _)))

/-- With no active request to stop, entry to DRAINING leaves the contexts, the receiver and the stop mode. -/
theorem drained_idle {x : State} (live : s.liveRequest.isSome = false)
    (sensor : unchangedBut (.engine :: postParts) s.drainBegun.drainEntered x) :
    x.tidyInterval.seq = s.seq ∧ x.tidyInterval.recv = s.recv ∧ x.tidyInterval.sched.stopMode = s.sched.stopMode ∧
      x.tidyInterval.sched.endCause = s.sched.endCause := by
  have idle := stopAllRequests_idle (k := .abort) (s := s.drainBegun) live
  have all : unchangedBut ([.enable, .partState, .flushMark, .queue] ++ .interval :: [.staged, .engine, .capCredit, .capRing] ++
      postParts) s x.tidyInterval := ((drainBegun_frame s).widen _).trans ((idle.widen _).trans ((drained_behind sensor).widen _))
  have stop := all.get .stop
  simp only [Part.same, Prod.mk.injEq] at stop
  exact ⟨seq_of_unchanged all, recv_of_unchanged all, stop.1, stop.2⟩

end Entered

/-- Settles O9: what each block does is `drainEntered`, what the Sensor Link does then `drainOn_eq`. -/
theorem enteringDraining : Obligations.EnteringDraining := by
  unfold Obligations.EnteringDraining
  rintro u s held running quiet apart form flushForm finished rfl
  have begun := drainBegun_frame s
  have keeps := Keeps.of_unchanged begun
  have frame := drainEntered_frame s.drainBegun
  obtain ⟨x, drained, sensor, posts, engine⟩ := drainOn_eq (s := s.drainBegun) held rfl quiet flushForm
  have exec_eq : exec .enableClear s = .next x.tidyInterval := by
    rw [exec_enableClear, running]
    exact congrArg _ drained
  have behind : unchangedBut (.interval :: .engine :: postParts) s.drainBegun.drainEntered x.tidyInterval :=
    (sensor.widen _).trans ((tidyInterval_frame x).widen _)
  have after := drained_behind sensor
  refine ⟨_, exec_eq, ?_, ?_, ?_, ?_, ?_, fun live => ?_, fun live => drained_idle live sensor, ?_, ?_, drained_frame sensor⟩
  · exact (behind.get .partState).trans (frame.get .partState)
  · have all := (drainEntered_posts (s := s.drainBegun) held).append posts (frame.get .time) (frame.get .msi) (frame.get .mask)
    exact (all.preceded begun).tidyInterval
  · exact (behind.get .staged).trans drainEntered_staged
  · exact (after.get .flushMark).trans (stopAllRequests_flushMark _ _)
  · exact (after.get .queue).trans (stopAllRequests_queue _ _)
  · exact ((stopAllRequests_applied (keeps.1 apart) (keeps.2 form) live).preceded begun).followed after
  · exact drainEntered_engine_finished (s := s.drainBegun) ((tidyInterval_engine x).trans engine)
  · exact ((drainEntered_tested (s := s.drainBegun) held).of_unchanged begun).followed behind

end Sys2Proof.Machine
end

section
/-! PROOFS of O17: a valid Setup Block is taken up, at Sensor Link and contexts that hold no work. -/

set_option Elab.async false

namespace Sys2Proof.Machine

open Sys2Proof

/-! ## The Sensor Link with no record in hand and no context in GAP -/

/-- No record is in hand and no context is in GAP: the port's requests touch the Sensor Link alone (R110). -/
def State.linkAlone (s : State) : Prop := s.engine.job = none ∧ s.inPhase .c0 .gap = false ∧ s.inPhase .c1 .gap = false

theorem linkAlone_of_unchanged {s t : State} {ps : List Part} (h : s.linkAlone) (frame : unchangedBut ps s t)
    (apart : (ps.contains .engine || ps.contains .contexts) = false := by decide) : t.linkAlone := by
  obtain ⟨job, gap0, gap1⟩ := h
  obtain ⟨engine, contexts⟩ := Bool.or_eq_false_iff.mp apart
  have phase : ∀ c, t.inPhase c .gap = s.inPhase c .gap := fun c => by
    unfold State.inPhase
    rw [ctx_of_contexts frame c contexts]
  exact ⟨(congrArg Engine.job (frame.get .engine engine)).trans job, (phase _).trans gap0, (phase _).trans gap1⟩

theorem gapAdvance_of_not_gap {c : CtxId} {s : State} (h : s.inPhase c .gap = false) : s.gapAdvance c = s := by
  unfold State.gapAdvance
  split
  · rfl
  · rw [if_neg (by simp [h])]

theorem gapEvaluate_of_not_gap {c : CtxId} {s : State} (h : s.inPhase c .gap = false) : s.gapEvaluate c = s := by
  unfold State.gapEvaluate
  simp only [gapAdvance_of_not_gap h, h, Bool.false_eq_true, false_and, if_false]

theorem gapEvaluateAll_of_not_gap {s : State} (h0 : s.inPhase .c0 .gap = false) (h1 : s.inPhase .c1 .gap = false) :
    s.gapEvaluateAll = s := by
  unfold State.gapEvaluateAll
  rw [gapEvaluate_of_not_gap h0, gapEvaluate_of_not_gap h1]

theorem checkFlushRecord_alone {s : State} (job : s.engine.job = none) : s.checkFlushRecord = s :=
  checkFlushRecord_other s (by simp [State.noFlushRecord, job])

section Alone

variable {s : State}

theorem becomeReady_alone (h : s.linkAlone) : unchangedBut sensorParts s s.becomeReady := by
  obtain ⟨job, gap0, gap1⟩ := h
  unfold State.becomeReady
  rw [gapEvaluateAll_of_not_gap (s := { s with sensor := { s.sensor with power := .ready } }) gap0 gap1]
  have idle : ({ s with sensor := { s.sensor with power := .ready } } : State).readyForRecord =
      { s with sensor := { s.sensor with power := .ready } } := by
    unfold State.readyForRecord
    simp only [job]
  rw [idle]
  intro p hp; cases p <;> first | rfl | exact absurd (by decide) hp

theorem grantReplay_alone (h : s.linkAlone) : unchangedBut sensorParts s s.grantReplay := by
  unfold State.grantReplay State.replayNext
  have waits : unchangedBut [.waits] s { s with sensor := { s.sensor with replayWaits := false } } := by
    intro p hp; cases p <;> first | rfl | exact absurd (by decide) hp
  split
  · refine (waits.widen _).trans ?_
    split
    · intro p hp; cases p <;> first | rfl | exact absurd (by decide) hp
    · have freed := freePort_frame { s with sensor := { s.sensor with replayWaits := false } }
      exact (freed.widen _).trans (becomeReady_alone (linkAlone_of_unchanged (linkAlone_of_unchanged h waits) freed))
  · exact .refl _ _

theorem grantFlush_alone (h : s.linkAlone) : unchangedBut sensorParts s s.grantFlush := by
  unfold State.grantFlush
  have waits : unchangedBut [.waits] s { s with sensor := { s.sensor with flushWaits := false } } := by
    intro p hp; cases p <;> first | rfl | exact absurd (by decide) hp
  split
  · refine (waits.widen _).trans ?_
    dsimp only
    split
    · exact (beginFlush_frame _).widen _
    · obtain ⟨job, gap0, gap1⟩ := linkAlone_of_unchanged h waits
      rw [gapAdvance_of_not_gap gap0, gapAdvance_of_not_gap gap1]
      rw [checkFlushRecord_alone job]
      exact .refl _ _
  · exact .refl _ _

theorem follow_alone (h : s.linkAlone) : unchangedBut (.interval :: sensorParts) s s.follow := by
  unfold State.follow State.arbitrate
  rw [checkFlushRecord_alone h.1]
  have replay := grantReplay_alone h
  have flush := grantFlush_alone (linkAlone_of_unchanged h replay)
  exact (replay.widen _).trans ((flush.widen _).trans (((grantEngine_frame _).widen _).trans ((tidyInterval_frame _).widen _)))

end Alone

/-! ## Entry to DRAINING at rest -/

theorem discardWaiting_nil {s : State} (h : s.sensor.staged = []) : s.discardWaiting = s := by
  unfold State.discardWaiting
  rw [h]
  simp only [List.filter_nil, List.foldl_nil]
  rw [← h]

/-- A block that holds no work enters DRAINING with the flush mark and R3 alone (R176). -/
theorem drainOn_rest {s : State} (queue : s.sched.queue = []) (staged : s.sensor.staged = []) (idle : s.engine.mode = .idle) :
    s.drainOn = s.recordMark.captureTest.follow := by
  have stopped : s.stopAllRequests .abort = s.recordMark := by
    simp [State.stopAllRequests, State.recordMark, queue]
  unfold State.drainOn State.engineDrain
  have kept : s.recordMark.discardWaiting = s.recordMark := discardWaiting_nil staged
  rw [stopped, kept, if_neg (by rw [show s.recordMark.engine = s.engine from rfl, idle]; simp)]

/-! ## The Setup Block (R149) -/

/-- A tail register is not below the size of its ring. -/
def badTails (u : Setup) (s : State) : Bool :=
  decide (u.control.size ≤ s.ring.ctlTail.toNat) || decide (u.capture.size ≤ s.ring.capTail.toNat) ||
    decide (u.buffer.size ≤ s.ring.bufTail.toNat)

/-- The Setup Block is held, BAD_INDEX is set where a tail register is out of range, and the Progress Block is written (R149). -/
theorem setupReported_taken (u : Setup) (p : PartState) (s : State) :
    (s.setupReported u p).ring = (s.setupTaken u p).ring ∧ (s.setupReported u p).link.part = p ∧
      (s.setupReported u p).cpl.cause.badIndex = (s.cpl.cause.badIndex || badTails u s) ∧
      (s.setupReported u p).link.issued = s.link.issued ++ messageSent s (s.setupReported u p) ++
        [progressWrite u s.ring.ctlHead s.ring.capHead s.ring.bufHead] ∧
      unchangedBut [.partState, .setup, .setupRead, .tails, .issued, .line, .cause] s (s.setupReported u p) := by
  have taken := setupTaken_frame u p s
  unfold State.setupReported
  rw [show (decide (u.control.size ≤ s.ring.ctlTail.toNat) || decide (u.capture.size ≤ s.ring.capTail.toNat) ||
    decide (u.buffer.size ≤ s.ring.bufTail.toNat)) = badTails u s from rfl]
  cases badTails u s
  · refine ⟨rfl, rfl, by simp [State.writeProgress, State.setupTaken, State.issue], ?_, ?_⟩
    · simp [State.writeProgress, State.setupTaken, State.issue, messageSent, State.signalling, progressWrite_eq]
    · intro p hp; cases p <;> first | rfl | exact absurd (by decide) hp
  · have raised := raise_frame Causes.onlyBadIndex (s.setupTaken u p)
    refine ⟨rfl, rfl, by simp [State.writeProgress, State.raise, State.setCauses, Causes.or, Causes.onlyBadIndex, State.setupTaken, State.issue], ?_, ?_⟩
    · exact congrArg₂ (· ++ ·) (raise_issued Causes.onlyBadIndex (s.setupTaken u p)) (congrArg (fun w => [w])
        (progressWrite_eq u s.ring.ctlHead s.ring.capHead s.ring.bufHead).symm)
    · refine (taken.widen _).trans ((raised.widen _).trans ?_)
      intro p hp; cases p <;> first | rfl | exact absurd (by decide) hp

theorem clampTail_toNat (size : Nat) (tail : Word) : clampTail size tail = if tail.toNat < size then tail else 0 := rfl

section Rest

variable {w : State}

/-- The engine at rest asks for its credit where records wait (R133). -/
theorem engineTest_rest (idle : w.engine.mode = .idle) (running : w.link.part = .running) : w.engineTest = { w with
    engine := if w.ring.ctlTail.toNat ≠ w.ring.ctlHead then { w.engine with mode := .waitCredit, credit := .asked }
      else w.engine } := by
  have waiting : w.ringWaiting .control = true ↔ w.ring.ctlTail.toNat ≠ w.ring.ctlHead :=
    (decide_eq_true_iff (p := w.ring.ctlHead ≠ w.ring.ctlTail.toNat)).trans ne_comm
  unfold State.engineTest
  by_cases waits : w.ring.ctlTail.toNat ≠ w.ring.ctlHead
  · rw [if_pos ⟨running, waiting.mpr waits⟩, if_pos waits, idle]
  · rw [if_neg fun h => waits (waiting.mp h.2), if_neg waits]

/-- The Buffer Unit at rest reads the entry at its ring's head (R93). -/
theorem bufferTest_rest {u : Setup} (held : w.ring.setup = some u) (size : 2 ≤ u.buffer.size) (running : w.link.part = .running) (empty : w.bufs.cache = [])
    (read : w.ring.bufRead = none) : w.bufferTest = { w with
      ring := { w.ring with
        bufRead := if w.ring.bufTail.toNat ≠ w.ring.bufHead then some (readAt u w.ring.bufHead w .buffer) else none } } := by
  have waiting : w.ringWaiting .buffer = true ↔ w.ring.bufTail.toNat ≠ w.ring.bufHead :=
    (decide_eq_true_iff (p := w.ring.bufHead ≠ w.ring.bufTail.toNat)).trans ne_comm
  have room : w.bufs.cache.length < w.cacheCapacity := by
    simp only [empty, State.cacheCapacity, State.ringSize, held, Option.map_some, Option.getD_some, Config.cacheDepth,
      List.length_nil]
    omega
  unfold State.bufferTest
  by_cases waits : w.ring.bufTail.toNat ≠ w.ring.bufHead
  · rw [if_pos ⟨running, waiting.mpr waits, room, read⟩, if_pos waits, recordRead_eq u .buffer w held]
    rfl
  · rw [if_neg fun h => waits (waiting.mp h.2.1), if_neg waits, ← read]

end Rest

/-- A valid buffer ring holds more than one entry (Table 59). -/
theorem bufferSize_of_valid {u : Setup} (valid : firstFailed (setupChecks u) = none) : 2 ≤ u.buffer.size := by
  have passed : ∀ c ∈ setupChecks u, c.1 = true := by simpa [firstFailed] using valid
  have ok := passed (ringOk u.buffer 16 4096 16, .bufferRing) (by simp [setupChecks])
  simp only [ringOk, Bool.and_eq_true, decide_eq_true_eq] at ok
  omega

section Taken

variable {u : Setup} {s : State}

/-- RUNNING with the fetching blocks testing their conditions (R175). -/
theorem setupRunning_spec {w : State} (work : w.sched.queue = [] ∧ w.sched.credit = .none ∧ w.bufs.cache = [] ∧ w.engine.mode = .idle ∧
      w.ring.capRead = none ∧ w.ring.bufRead = none) (held : w.ring.setup = some u) (size : 2 ≤ u.buffer.size)
    (running : w.link.part = .running) :
    w.engineTest.captureTest.bufferTest = { w with
      engine := if w.ring.ctlTail.toNat ≠ w.ring.ctlHead then { w.engine with mode := .waitCredit, credit := .asked }
        else w.engine
      sched := { w.sched with credit := if w.ring.capTail.toNat ≠ w.ring.capHead then .asked else .none }
      ring := { w.ring with
        bufRead := if w.ring.bufTail.toNat ≠ w.ring.bufHead then some (readAt u w.ring.bufHead w .buffer) else none } } := by
  obtain ⟨queue, credit, cache, idle, capRead, bufRead⟩ := work
  rw [engineTest_rest idle running]
  generalize (if w.ring.ctlTail.toNat ≠ w.ring.ctlHead then _ else w.engine : Engine) = e
  have captured : ({ w with engine := e } : State).captureTest = { w with
      engine := e, sched := { w.sched with credit := if w.ring.capTail.toNat ≠ w.ring.capHead then .asked else .none } } := by
    rw [captureTest_unasked (s := { w with engine := e }) credit capRead]
    simp only [running, queue, List.length_nil, Nat.zero_lt_succ, true_or, true_and, ne_comm (a := w.ring.capHead)]
  rw [captured]
  generalize (if w.ring.capTail.toNat ≠ w.ring.capHead then _ else _ : CreditState) = c
  exact bufferTest_rest (w := { w with engine := e, sched := { w.sched with credit := c } }) held size running cache bufRead

/-- DRAINING, with the Capture Ring tail as the flush mark and the Capture Scheduler fetching up to it (R24, R176). -/
theorem setupDraining_spec {w : State} (work : w.sched.queue = [] ∧ w.sched.credit = .none ∧ w.ring.capRead = none)
    (draining : w.link.part = .draining) :
    w.recordMark.captureTest = { w with
      sched := { w.sched with
        flushMark := if w.ring.capTail.toNat = w.ring.capHead then none else some w.ring.capTail.toNat
        credit := if w.ring.capTail.toNat ≠ w.ring.capHead then .asked else .none } } := by
  obtain ⟨queue, credit, capRead⟩ := work
  rw [captureTest_unasked (s := w.recordMark) credit capRead]
  unfold State.recordMark
  by_cases same : w.ring.capTail.toNat = w.ring.capHead
  · simp [draining, same]
  · simp [draining, same, Ne.symm same, queue]

theorem setMark_frame (w : State) (mark : Option Nat) (c : CreditState) : unchangedBut [.flushMark, .capCredit] w
    { w with sched := { w.sched with flushMark := mark, credit := c } } := by
  intro p hp; cases p <;> first | rfl | exact absurd (by decide) hp

theorem setTested_frame (w : State) (e : Engine) (c : CreditState) (read : Option ReadInProgress) :
    unchangedBut [.engine, .capCredit, .bufRing] w
      { w with engine := e, sched := { w.sched with credit := c }, ring := { w.ring with bufRead := read } } := by
  intro p hp; cases p <;> first | rfl | exact absurd (by decide) hp

/-- What a Setup Block leaves that has been taken up, with changes elsewhere behind it (R149). -/
theorem setupReported_left {p : PartState} {w t : State} {ps : List Part} (ring : w.ring = (s.setupTaken u p).ring)
    (cause : w.cpl.cause.badIndex = (s.cpl.cause.badIndex || badTails u s))
    (issued : w.link.issued = s.link.issued ++ messageSent s w ++ [progressWrite u s.ring.ctlHead s.ring.capHead s.ring.bufHead])
    (after : unchangedBut ps w t)
    (apart : ([Part.setup, .setupRead, .tails, .cause, .mask, .issued].all fun p => !ps.contains p) = true := by decide) :
    t.ring.setup = some u ∧ t.ring.setupRead = none ∧
      t.ring.ctlTail = (if s.ring.ctlTail.toNat < u.control.size then s.ring.ctlTail else 0) ∧
      t.ring.capTail = (if s.ring.capTail.toNat < u.capture.size then s.ring.capTail else 0) ∧
      t.ring.bufTail = (if s.ring.bufTail.toNat < u.buffer.size then s.ring.bufTail else 0) ∧
      t.cpl.cause.badIndex = (s.cpl.cause.badIndex || decide (u.control.size ≤ s.ring.ctlTail.toNat) ||
        decide (u.capture.size ≤ s.ring.capTail.toNat) || decide (u.buffer.size ≤ s.ring.bufTail.toNat)) ∧
      t.link.issued = s.link.issued ++ messageSent s t ++
        [progressWrite u s.ring.ctlHead s.ring.capHead s.ring.bufHead] := by
  simp only [List.all_cons, List.all_nil, Bool.and_true, Bool.and_eq_true, Bool.not_eq_true'] at apart
  obtain ⟨setup, setupRead, tails, causes, mask, link⟩ := apart
  have tails := after.get .tails tails
  simp only [Part.same, Prod.mk.injEq] at tails
  obtain ⟨ctl, cap, buf⟩ := tails
  have causes : t.cpl.cause = w.cpl.cause := after.get .cause causes
  have sent : messageSent s t = messageSent s w := by
    unfold messageSent State.signalling
    rw [causes, show t.cpl.mask = w.cpl.mask from after.get .mask mask]
  refine ⟨(after.get .setup setup).trans (by rw [ring]; rfl), (after.get .setupRead setupRead).trans (by rw [ring]; rfl),
    ctl.trans (by rw [ring]; rfl), cap.trans (by rw [ring]; rfl), buf.trans (by rw [ring]; rfl), ?_, ?_⟩
  · rw [causes, cause, badTails, Bool.or_assoc, Bool.or_assoc, Bool.or_assoc]
  · rw [sent]
    exact (after.get .issued link).trans issued

end Taken

/-- Settles O17: at rest no block holds work (`restForm`), so each block's test has one outcome. -/
theorem validSetupBlockIsTakenUp : Obligations.ValidSetupBlockIsTakenUp := by
  unfold Obligations.ValidSetupBlockIsTakenUp
  rintro data s reading rest valid u rfl
  obtain ⟨empty, starting, -⟩ := rest
  obtain ⟨queue, credit, ctx0, ctx1, cache, staged, engine, -, capRead, bufRead⟩ := empty (.inr (.inl (starting reading)))
  obtain ⟨read, reading⟩ := Option.isSome_iff_exists.mp reading
  have size := bufferSize_of_valid valid
  have exec_eq : exec (.setupReadDone data) s = .next (s.takeSetup (parseSetup data)) := by
    show Host.Outcome.next _ = _
    rw [reading]
    dsimp only
    rw [setupCheck_eq, valid]
  generalize parseSetup data = u at size exec_eq
  rw [exec_eq, takeSetup_eq]
  have idle : s.engine.mode = .idle := by rw [engine]; rfl
  have phase : ∀ c p, s.inPhase c p = false := fun c p => by cases c <;> simp [State.inPhase, State.ctx, ctx0, ctx1]
  cases enable : s.link.enable
  · obtain ⟨ring, part, cause, issued, frame⟩ := setupReported_taken u .draining s
    rw [if_neg Bool.false_ne_true]
    generalize s.setupReported u .draining = w at ring part cause issued frame
    have head : w.ring.capHead = s.ring.capHead := by rw [ring]; rfl
    have wcredit : w.sched.credit = .none := (frame.get .capCredit).trans credit
    have wring : w.ring.capRead = none := by rw [ring]; exact capRead
    have wqueue : w.sched.queue = [] := (frame.get .queue).trans queue
    have wengine : w.engine = s.engine := frame.get .engine
    rw [drainOn_rest wqueue ((frame.get .staged).trans staged) (by rw [wengine, idle]),
      setupDraining_spec ⟨wqueue, wcredit, wring⟩ part]
    have marked := setMark_frame w (if w.ring.capTail.toNat = w.ring.capHead then none else some w.ring.capTail.toNat)
      (if w.ring.capTail.toNat ≠ w.ring.capHead then .asked else .none)
    generalize left : ({ w with sched := { w.sched with
        flushMark := if w.ring.capTail.toNat = w.ring.capHead then none else some w.ring.capTail.toNat
        credit := if w.ring.capTail.toNat ≠ w.ring.capHead then .asked else .none } } : State) = v at marked ⊢
    have alone : s.linkAlone := ⟨by rw [engine]; rfl, phase _ _, phase _ _⟩
    have followed := follow_alone (linkAlone_of_unchanged (linkAlone_of_unchanged alone frame) marked)
    have after : unchangedBut (.flushMark :: .capCredit :: .interval :: sensorParts) w v.follow :=
      (marked.widen _).trans (followed.widen _)
    obtain ⟨setup, setupRead, ctl, cap, buf, bad, issued⟩ := setupReported_left ring cause issued after
    have tail : v.follow.ring.capTail = w.ring.capTail :=
      (Prod.mk.inj (Prod.mk.inj (after.get .tails)).2).1
    refine ⟨_, rfl, setup, setupRead, ctl, cap, buf, bad, issued, fun h => absurd h Bool.false_ne_true, fun _ => ⟨?_, ?_, ?_, ?_, fun quiet => ?_⟩⟩
    · exact (after.get .partState).trans part
    · rw [tail, ← head]
      exact (followed.get .flushMark).trans (by rw [← left])
    · rw [tail, ← head]
      exact (followed.get .capCredit).trans (by rw [← left])
    · exact (after.get .engine).trans wengine
    · have all : unchangedBut [.partState, .setup, .setupRead, .tails, .issued, .line, .cause, .flushMark, .capCredit] s v :=
        (frame.widen _).trans (marked.widen _)
      have vengine : v.engine = s.engine := all.get .engine
      rw [follow_quiet v ⟨quietPort_of_unchanged quiet all, by simp [State.noFlushRecord, vengine, engine, State.reset]⟩]
      exact timedBut_tidyInterval all
  · obtain ⟨ring, part, cause, issued, frame⟩ := setupReported_taken u .running s
    rw [if_pos rfl]
    generalize s.setupReported u .running = w at ring part cause issued frame
    have wengine : w.engine = s.engine := frame.get .engine
    have time : w.now = s.now := frame.get .time
    rw [setupRunning_spec ⟨(frame.get .queue).trans queue, (frame.get .capCredit).trans credit,
      (congrArg BufferUnit.cache (frame.get .cache)).trans cache, by rw [wengine, idle], by rw [ring]; exact capRead,
      by rw [ring]; exact bufRead⟩ (by rw [ring]; rfl) size part]
    have tested := setTested_frame w
      (if w.ring.ctlTail.toNat ≠ w.ring.ctlHead then { w.engine with mode := .waitCredit, credit := .asked } else w.engine)
      (if w.ring.capTail.toNat ≠ w.ring.capHead then .asked else .none)
      (if w.ring.bufTail.toNat ≠ w.ring.bufHead then some (readAt u w.ring.bufHead w .buffer) else none)
    obtain ⟨setup, setupRead, ctl, cap, buf, bad, issued⟩ := setupReported_left ring cause issued tested
    refine ⟨_, rfl, setup, setupRead, ctl, cap, buf, bad, issued, fun _ => ⟨part, ?_, ?_, ?_, ?_⟩, fun h => absurd h (by decide)⟩
    · rw [show s.ring.ctlHead = w.ring.ctlHead by rw [ring]; rfl, ← wengine]
    · rw [show s.ring.capHead = w.ring.capHead by rw [ring]; rfl]
    · rw [show s.ring.bufHead = w.ring.bufHead by rw [ring]; rfl,
        show readAt u w.ring.bufHead s .buffer = readAt u w.ring.bufHead w .buffer by simp only [readAt, readFrom, time]]
    · exact (frame.widen _).trans (tested.widen _)

end Sys2Proof.Machine
end

section
/-! A context in GAP evaluates (R31 to R33): what `GapTaken` says, step by step. -/

set_option Elab.async false

namespace Sys2Proof.Machine

open Sys2Proof

/-! ## Entry to WAIT_START (R33) -/

section Waits

variable {s : State} {c : CtxId} {f : Frame}

theorem beginWaitStart_frame (c : CtxId) (s : State) : unchangedBut [.contexts, .queue, .missed] s (s.beginWaitStart c) := by
  refine .trans (t := (s.updCtx c (Frame.toWaitStart s.sensor.generation s.seq.missed)).updHead fun e =>
    { e with missed := satAdd e.missed s.seq.missed }) (((updCtx_frame c _ s).widen _).trans ((updHead_frame _ _).widen _)) ?_
  intro p hp; cases p <;> first | rfl | exact absurd (by decide) hp

theorem beginWaitStart_ctx (ctx : s.ctx c = some f) :
    (s.beginWaitStart c).ctx c = some (f.toWaitStart s.sensor.generation s.seq.missed) :=
  calc (s.beginWaitStart c).ctx c = ((s.updCtx c (Frame.toWaitStart s.sensor.generation s.seq.missed)).updHead fun e =>
        { e with missed := satAdd e.missed s.seq.missed }).ctx c := by cases c <;> rfl
    _ = _ := (updHead_ctx _ _ c).trans (updCtx_ctx_of_ctx ctx _)

theorem beginWaitStart_ctx_other (ctx : s.ctx c = some f) : (s.beginWaitStart c).ctx (other c) = s.ctx (other c) :=
  calc (s.beginWaitStart c).ctx (other c) = ((s.updCtx c (Frame.toWaitStart s.sensor.generation s.seq.missed)).updHead fun e =>
        { e with missed := satAdd e.missed s.seq.missed }).ctx (other c) := by cases c <;> rfl
    _ = s.ctx (other c) := by rw [updHead_ctx, updCtx_of_ctx ctx, setCtx_ctx_other]

theorem updHead_queue (g : Entry → Entry) (s : State) :
    (s.updHead g).sched.queue = s.sched.queue.head?.toList.map g ++ s.sched.queue.tail := by
  unfold State.updHead
  cases queue : s.sched.queue with
  | nil => simpa using queue
  | cons e rest => rfl

theorem beginWaitStart_queue (c : CtxId) (s : State) : (s.beginWaitStart c).sched.queue =
    s.sched.queue.head?.toList.map (fun e => { e with missed := min (e.missed + s.seq.missed) 65535 }) ++
      s.sched.queue.tail := by
  have kept : (s.updCtx c (Frame.toWaitStart s.sensor.generation s.seq.missed)).sched.queue = s.sched.queue :=
    (updCtx_frame _ _ _).get .queue
  show (State.updHead _ (s.updCtx c (Frame.toWaitStart s.sensor.generation s.seq.missed))).sched.queue = _
  rw [updHead_queue, kept]
  rfl

theorem setLatch_frame (latch : Bool) (s : State) : unchangedBut [.latch] s { s with seq := { s.seq with latch := latch } } := by
  intro p hp; cases p <;> first | rfl | exact absurd (by decide) hp

/-- A start condition met on a set latch (R33). -/
def State.latchedStart (r : CaptureRequest) (c : CtxId) (s : State) : State :=
  (State.updCtx c (fun f => { f with flags := { f.flags with latchedStart := true } })
    { s with seq := { s.seq with latch := false } }).startCondition r c

theorem latchedStart_frame (r : CaptureRequest) (c : CtxId) (s : State) :
    unchangedBut [.contexts, .lines, .latch] s (s.latchedStart r c) :=
  ((setLatch_frame false s).widen _).trans (((updCtx_frame c _ _).widen _).trans ((startCondition_frame r c _).widen _))

theorem latchedStart_met (ctx : s.ctx c = some f) (r : CaptureRequest) :
    StartMet r c { f with flags := { f.flags with latchedStart := true } } s (s.latchedStart r c) ∧
      (s.latchedStart r c).seq.latch = false ∧ (s.latchedStart r c).ctx (other c) = s.ctx (other c) := by
  have cleared := setLatch_frame false s
  have at_ := (ctx_of_contexts cleared c).trans ctx
  have flagged := updCtx_frame c (fun f => { f with flags := { f.flags with latchedStart := true } })
    { s with seq := { s.seq with latch := false } }
  have begun := updCtx_ctx_of_ctx at_ (fun f => { f with flags := { f.flags with latchedStart := true } })
  have before : unchangedBut [.contexts, .latch] s _ := (cleared.widen _).trans (flagged.widen _)
  refine ⟨(startCondition_met begun r).preceded before, ?_, (startCondition_ctx_other begun r).trans ?_⟩
  · exact ((startCondition_frame r c _).get .latch).trans (flagged.get .latch)
  · rw [updCtx_of_ctx at_, setCtx_ctx_other, ctx_of_contexts cleared]

/-- A context enters WAIT_START (R33, R35). -/
theorem enterWaitStart_entered (ctx : s.ctx c = some f) (r : CaptureRequest) :
    WaitStartEntered r c f s.sensor.generation s (s.enterWaitStart r c) ∧
      (s.enterWaitStart r c).ctx (other c) = s.ctx (other c) := by
  rw [enterWaitStart_eq]
  dsimp only
  have frame := beginWaitStart_frame c s
  have at_ := beginWaitStart_ctx ctx
  have beside := beginWaitStart_ctx_other ctx
  have queue := beginWaitStart_queue c s
  have pending : (s.beginWaitStart c).seq.missed = 0 := rfl
  have latch : (s.beginWaitStart c).seq.latch = s.seq.latch := frame.get .latch
  have lines := frame.get .lines
  simp only [Part.same, Prod.mk.injEq] at lines
  have now : (s.beginWaitStart c).now = s.now := frame.get .time
  generalize s.beginWaitStart c = w at *
  unfold WaitStartEntered
  by_cases software : r.source = .software
  · have started := startCondition_frame r c w
    rw [if_pos software]
    exact ⟨⟨(started.get .missed).trans pending, (started.get .queue).trans queue,
      fun _ => ⟨(startCondition_met at_ r).preceded frame, (started.get .latch).trans latch⟩, fun h => absurd software h,
      fun h => absurd software h⟩, (startCondition_ctx_other at_ r).trans beside⟩
  rw [if_neg software, latch]
  by_cases latched : s.seq.latch = true
  · rw [if_pos latched]
    have started := latchedStart_frame r c w
    obtain ⟨met, off, kept⟩ := latchedStart_met at_ r
    exact ⟨⟨(started.get .missed).trans pending, (started.get .queue).trans queue, fun h => absurd h software,
      fun _ _ => ⟨met.preceded frame, off⟩, fun _ h => absurd (latched.symm.trans h) (by decide)⟩, kept.trans beside⟩
  · rw [if_neg latched]
    have unlatched := Bool.not_eq_true _ ▸ latched
    by_cases timeout : r.timeout = 0
    · rw [if_neg (not_not.mpr timeout)]
      exact ⟨⟨pending, queue, fun h => absurd h software, fun _ h => absurd h latched,
        fun _ _ => ⟨at_.trans (by rw [if_pos timeout]; rfl), latch.trans unlatched, lines.1, lines.2⟩⟩, beside⟩
    · rw [if_pos timeout]
      have timed := updCtx_frame c (fun f => { f with trigTimer := some (Timer.start w.now (millis r.timeout)) }) w
      have lines' := timed.get .lines
      simp only [Part.same, Prod.mk.injEq] at lines'
      refine ⟨⟨(timed.get .missed).trans pending, (timed.get .queue).trans queue, fun h => absurd h software,
        fun _ h => absurd h latched, fun _ _ => ⟨(updCtx_ctx_of_ctx at_ _).trans (by rw [if_neg timeout, now]; rfl),
          (timed.get .latch).trans (latch.trans unlatched), lines'.1.trans lines.1, lines'.2.trans lines.2⟩⟩, ?_⟩
      rw [updCtx_of_ctx at_, setCtx_ctx_other, beside]

end Waits

/-! ## What `GapTaken` looks at -/

section Around

variable {r : CaptureRequest} {c : CtxId} {f : Frame} {l : SensorLink} {s t v : State} {ps : List Part}

theorem WaitStartEntered.followed {gen : Word} (h : WaitStartEntered r c f gen s t) (frame : unchangedBut ps t v)
    (contexts : ps.contains .contexts = false) (lines : ps.contains .lines = false) (latch : ps.contains .latch = false)
    (missed : ps.contains .missed = false) (queue : ps.contains .queue = false) : WaitStartEntered r c f gen s v := by
  obtain ⟨count, entries, software, latched, waits⟩ := h
  have shows := frame.get .lines lines
  simp only [Part.same, Prod.mk.injEq] at shows
  have latch : v.seq.latch = t.seq.latch := frame.get .latch latch
  refine ⟨(frame.get .missed missed).trans count, (frame.get .queue queue).trans entries, fun h => ?_, fun h set => ?_,
    fun h unset => ?_⟩
  · obtain ⟨met, kept⟩ := software h
    exact ⟨met.followed frame contexts lines, latch.trans kept⟩
  · obtain ⟨met, off⟩ := latched h set
    exact ⟨met.followed frame contexts lines, latch.trans off⟩
  · obtain ⟨ctx, off, expose, strobe⟩ := waits h unset
    exact ⟨(ctx_of_contexts frame c contexts).trans ctx, latch.trans off, shows.1.trans expose, shows.2.trans strobe⟩

theorem WaitStartEntered.preceded {gen : Word} (frame : unchangedBut ps s t) (h : WaitStartEntered r c f gen t v)
    (time : ps.contains .time = false) (lines : ps.contains .lines = false) (latch : ps.contains .latch = false)
    (missed : ps.contains .missed = false) (queue : ps.contains .queue = false) : WaitStartEntered r c f gen s v := by
  have shows := frame.get .lines lines
  simp only [Part.same, Prod.mk.injEq] at shows
  unfold WaitStartEntered at h ⊢
  rw [show t.seq.latch = s.seq.latch from frame.get .latch latch, show t.seq.missed = s.seq.missed from frame.get .missed missed,
    show t.sched.queue = s.sched.queue from frame.get .queue queue, show t.now = s.now from frame.get .time time,
    shows.1, shows.2] at h
  obtain ⟨count, entries, software, latched, waits⟩ := h
  exact ⟨count, entries, fun h => ⟨(software h).1.preceded frame time lines, (software h).2⟩,
    fun h set => ⟨(latched h set).1.preceded frame time lines, (latched h set).2⟩, waits⟩

theorem FlushBegun.followed (h : FlushBegun l s t) (frame : unchangedBut ps t v) (staged : ps.contains .staged = false)
    (flush : ps.contains .flush = false) (port : ps.contains .port = false) (waits : ps.contains .waits = false) :
    FlushBegun l s v := by
  have waits := frame.get .waits waits
  simp only [Part.same, Prod.mk.injEq] at waits
  unfold FlushBegun State.noneWaits
  rw [show v.sensor.staged = t.sensor.staged from frame.get .staged staged,
    show v.sensor.flush = t.sensor.flush from frame.get .flush flush,
    show v.sensor.port = t.sensor.port from frame.get .port port, waits.1, waits.2.1, waits.2.2]
  exact h

theorem FlushBegun.preceded (frame : unchangedBut ps s t) (h : FlushBegun l t v) (time : ps.contains .time = false) :
    FlushBegun l s v := by
  unfold FlushBegun at h ⊢
  rwa [show t.now = s.now from frame.get .time time] at h

/-- The pieces that the evaluation of GAP sets. -/
def gapSets : List Part := [.contexts, .stop, .lines, .latch, .missed, .queue, .staged, .flush, .port, .waits]

theorem GapTaken.followed (h : GapTaken r c f l s t) (frame : unchangedBut ps t v)
    (apart : (gapSets.all fun p => !ps.contains p) = true := by decide) : GapTaken r c f l s v := by
  simp only [gapSets, List.all_cons, List.all_nil, Bool.and_true, Bool.and_eq_true, Bool.not_eq_true'] at apart
  obtain ⟨contexts, stop, lines, latch, missed, queue, staged, flush, port, waits⟩ := apart
  have ctx := ctx_of_contexts frame c contexts
  unfold GapTaken at h ⊢
  split at h
  · exact h.followed frame contexts stop
  · exact ctx.trans h
  · exact ctx.trans h
  · exact ctx.trans h
  · exact h.followed frame contexts lines latch missed queue
  · obtain ⟨kept, asks, begins⟩ := h
    have waiting := frame.get .waits waits
    simp only [Part.same, Prod.mk.injEq] at waiting
    exact ⟨ctx.trans kept, fun h k => waiting.2.1.trans (asks h k), fun h k => (begins h k).followed frame staged flush port waits⟩

/-- The pieces that the evaluation of GAP reads, but for the context beside it. -/
def gapReads : List Part := [.time, .stop, .lines, .latch, .missed, .queue]

theorem GapTaken.preceded (frame : unchangedBut ps s t) (h : GapTaken r c f l t v) (beside : t.ctx (other c) = s.ctx (other c))
    (apart : (gapReads.all fun p => !ps.contains p) = true := by decide) : GapTaken r c f l s v := by
  simp only [gapReads, List.all_cons, List.all_nil, Bool.and_true, Bool.and_eq_true, Bool.not_eq_true'] at apart
  obtain ⟨time, stop, lines, latch, missed, queue⟩ := apart
  have phase : t.inPhase (other c) .readout = s.inPhase (other c) .readout := by simp only [State.inPhase, beside]
  have blocks : t.blocksFlush (other c) = s.blocksFlush (other c) := blocksFlush_congr beside
  unfold GapTaken at h ⊢
  split at h
  · exact h.preceded frame stop
  · exact h
  · exact h
  · exact h
  · exact h.preceded frame time lines latch missed queue
  · rw [phase, blocks] at h
    obtain ⟨kept, asks, begins⟩ := h
    exact ⟨kept, asks, fun h k => (begins h k).preceded frame time⟩

theorem gapParts_congr (l : SensorLink) (beside : t.ctx (other c) = s.ctx (other c)) : gapParts c l t = gapParts c l s := by
  have phase : t.inPhase (other c) .readout = s.inPhase (other c) .readout := by simp only [State.inPhase, beside]
  unfold gapParts
  rw [phase]

end Around

/-! ## The evaluation (R31) -/

/-- A context in GAP asks for a flush (R32). -/
def GapAsks (c : CtxId) (s : State) : Prop :=
  s.sensor.power = .ready ∧ s.sensor.staged ≠ [] ∧ s.sensor.flush = none ∧ s.inPhase (other c) .readout = false

/-- A context in GAP asks for a flush that begins at once (R32, R116). -/
def GapBegins (c : CtxId) (s : State) : Prop :=
  s.sensor.power = .ready ∧ s.sensor.staged ≠ [] ∧ s.sensor.flush = none ∧ s.sensor.port = none ∧ s.blocksFlush (other c) = false

section Evaluation

variable {r : CaptureRequest} {c : CtxId} {f : Frame} {s : State}

/-- What keeps a context in GAP where it is (R31). -/
theorem gapAdvance_held (off : s.sensor.power ≠ .off)
    (held : s.sensor.power = .ready → ¬ (s.sensor.staged = [] ∧ s.sensor.flush = none)) (d : CtxId) : s.gapAdvance d = s := by
  unfold State.gapAdvance
  split
  · rfl
  · split
    · cases power : s.sensor.power with
      | off => exact absurd power off
      | settling => rfl
      | replaying => rfl
      | ready => exact if_neg (held power)
    · rfl

theorem gapAdvance_off (ctx : s.ctx c = some f) (gap : f.phase = .gap) (request : s.request = some r)
    (power : s.sensor.power = .off) : s.gapAdvance c = s.closeFrame c .sensorOff := by
  unfold State.gapAdvance
  simp only [request, inPhase_of_ctx ctx, gap, decide_true, if_true, power]

theorem gapAdvance_enters (ctx : s.ctx c = some f) (gap : f.phase = .gap) (request : s.request = some r)
    (power : s.sensor.power = .ready) (staged : s.sensor.staged = []) (flush : s.sensor.flush = none) :
    s.gapAdvance c = s.enterWaitStart r c := by
  unfold State.gapAdvance
  simp only [request, inPhase_of_ctx ctx, gap, decide_true, if_true, power, staged, flush, and_self]

theorem gapEvaluate_asks (ctx : s.ctx c = some f) (gap : f.phase = .gap) (asks : GapAsks c s) :
    s.gapEvaluate c = { s with sensor := { s.sensor with flushWaits := true } } := by
  obtain ⟨power, staged, flush, readout⟩ := asks
  unfold State.gapEvaluate
  rw [gapAdvance_held (by simp [power]) fun _ h => staged h.1]
  exact if_pos ⟨by simp [inPhase_of_ctx ctx, gap], power, staged, flush, readout⟩

/-- The first cases of Table 14, for a context that asks for no flush. -/
theorem gapAdvance_takes (ctx : s.ctx c = some f) (gap : f.phase = .gap) (request : s.request = some r)
    (asks : ¬ GapAsks c s) :
    GapTaken r c f s.sensor s (s.gapAdvance c) ∧ (s.gapAdvance c).ctx (other c) = s.ctx (other c) ∧
      unchangedBut (gapParts c s.sensor s) s (s.gapAdvance c) := by
  unfold GapTaken gapParts
  cases power : s.sensor.power with
  | off =>
    rw [gapAdvance_off ctx gap request power]
    refine ⟨closeFrame_closed ctx _, ?_, closeFrame_frame _ _ _⟩
    rw [closeFrame_eq ctx]
    cases c <;> rfl
  | settling =>
    rw [gapAdvance_held (by simp [power]) (by simp [power])]
    exact ⟨ctx, rfl, .refl _ _⟩
  | replaying =>
    rw [gapAdvance_held (by simp [power]) (by simp [power])]
    exact ⟨ctx, rfl, .refl _ _⟩
  | ready =>
    cases flush : s.sensor.flush with
    | some fl =>
      rw [gapAdvance_held (by simp [power]) (by simp [flush])]
      exact ⟨ctx, rfl, .refl _ _⟩
    | none =>
      cases staged : s.sensor.staged with
      | nil =>
        rw [gapAdvance_enters ctx gap request power staged flush]
        obtain ⟨entered, beside⟩ := enterWaitStart_entered ctx r
        refine ⟨entered, beside, ?_⟩
        show unchangedBut [.contexts, .lines, .latch, .missed, .queue] _ _
        exact (enterWaitStart_frame r c s).widen _
      | cons e rest =>
        rw [gapAdvance_held (by simp [power]) (by simp [staged])]
        have readout : s.inPhase (other c) .readout = true :=
          Bool.eq_true_of_not_eq_false fun h => asks ⟨power, by simp [staged], flush, h⟩
        refine ⟨⟨ctx, fun h => absurd (readout.symm.trans h) (by decide), fun h => ?_⟩, rfl, .refl _ _⟩
        simp [State.blocksFlush, readout] at h

/-- A context in GAP that asks for no flush went through Table 14 at once. -/
theorem gapEvaluate_takes (ctx : s.ctx c = some f) (gap : f.phase = .gap) (request : s.request = some r)
    (asks : ¬ GapAsks c s) :
    GapTaken r c f s.sensor s (s.gapEvaluate c) ∧ (s.gapEvaluate c).ctx (other c) = s.ctx (other c) ∧
      unchangedBut (gapParts c s.sensor s) s (s.gapEvaluate c) ∧ (s.gapEvaluate c).sensor = s.sensor := by
  obtain ⟨taken, beside, frame⟩ := gapAdvance_takes ctx gap request asks
  have sensor : (s.gapAdvance c).sensor = s.sensor := sensor_of_unchanged (gapAdvance_frame c s)
  have evaluate : s.gapEvaluate c = s.gapAdvance c := by
    unfold State.gapEvaluate
    refine if_neg fun ⟨_, power, staged, flush, readout⟩ => asks ?_
    rw [sensor] at power staged flush
    exact ⟨power, staged, flush, by rwa [State.inPhase, beside] at readout⟩
  rw [evaluate]
  exact ⟨taken, beside, frame, sensor⟩

end Evaluation

/-! ## The arbiter behind an evaluation (R110) -/

/-- A flush that is granted the port and may not begin leaves its request, and the port goes on to the Control Engine (R116). -/
theorem arbitrate_cancels {s : State} (free : s.sensor.port = none) (replay : s.sensor.replayWaits = false)
    (waits : s.sensor.flushWaits = true) (may : s.flushCondition = true → s.sensor.staged = [])
    (held : ∀ d, State.gapAdvance d { s with sensor := { s.sensor with flushWaits := false } } =
      { s with sensor := { s.sensor with flushWaits := false } })
    (other : s.noFlushRecord) :
    s.arbitrate = State.grantEngine { s with sensor := { s.sensor with flushWaits := false } } := by
  unfold State.arbitrate
  rw [grantReplay_of_not_waiting replay]
  refine congrArg State.grantEngine ?_
  unfold State.grantFlush
  rw [if_pos ⟨free, waits⟩]
  dsimp only
  rw [if_neg fun h => h.2 (may h.1), held, held]
  exact checkFlushRecord_other _ other

theorem grantEngine_of_not_waiting {s : State} (h : s.sensor.engineWaits = false) : s.grantEngine = s := by
  unfold State.grantEngine
  rw [if_neg (by simp [h])]

theorem flushGranted_frame (s : State) (staged : List Staged) (flush : Option Flush) (port : Option Transaction) :
    unchangedBut [.staged, .flush, .port, .waits] s
      { s with sensor := { s.sensor with flushWaits := false, staged := staged, flush := flush, port := port } } := by
  intro p hp
  cases p <;> first | rfl | exact absurd (by decide) hp

section Arbitrated

variable {r : CaptureRequest} {c : CtxId} {f : Frame} {s e : State} {ps : List Part}

/-- A context in GAP has asked for a flush, a change elsewhere has followed, and the arbiter ran (R32, R110, R116). -/
theorem gapAsked_arbitrated (ctx : s.ctx c = some f) (gap : f.phase = .gap)
    (quiet : s.sensor.port ≠ none ∨ s.noneWaits) (asks : GapAsks c s)
    (frame : unchangedBut ps { s with sensor := { s.sensor with flushWaits := true } } e) (noRecord : e.noFlushRecord)
    (apart : ((gapSets ++ [Part.time, .power, .generation]).all fun p => !ps.contains p) = true) :
    (∀ r, GapTaken r c f s.sensor s e.arbitrate) ∧ e.arbitrate.ctx (other c) = s.ctx (other c) ∧
      (¬ GapBegins c s → e.arbitrate.sensor.staged = s.sensor.staged) ∧
      unchangedBut (gapParts c s.sensor s ++ ps) s e.arbitrate := by
  rw [List.all_append, Bool.and_eq_true] at apart
  obtain ⟨sets, others⟩ := apart
  simp only [gapSets, List.all_cons, List.all_nil, Bool.and_true, Bool.and_eq_true, Bool.not_eq_true'] at sets others
  obtain ⟨contexts, -, -, -, -, -, staged, flush, port, waits⟩ := sets
  obtain ⟨time, power, generation⟩ := others
  obtain ⟨ready, left, idle, readout⟩ := asks
  obtain ⟨x, rest, front⟩ := List.exists_cons_of_ne_nil left
  have ectx : ∀ d, e.ctx d = s.ctx d := fun d => ctx_of_contexts frame d contexts
  have eport : e.sensor.port = s.sensor.port := frame.get .port port
  have estaged : e.sensor.staged = x :: rest := (frame.get .staged staged).trans front
  have eflush : e.sensor.flush = none := (frame.get .flush flush).trans idle
  have egeneration : e.sensor.generation = s.sensor.generation := frame.get .generation generation
  have enow : e.now = s.now := frame.get .time time
  have epower := frame.get .power power
  have ewaits := frame.get .waits waits
  simp only [Part.same, Prod.mk.injEq] at epower ewaits
  obtain ⟨epower, -⟩ := epower
  obtain ⟨ereplay, ewaits, eengine⟩ := ewaits
  have since : unchangedBut (.waits :: ps) s e :=
    ((flushWaits_frame s true).mono (by simp)).trans (frame.mono fun p hp => List.mem_cons_of_mem _ hp)
  have blocked : ∀ d, e.blocksFlush d = s.blocksFlush d := fun d => blocksFlush_congr (ectx d)
  have unblocked : s.blocksFlush c = false := by
    rw [blocksFlush_of_ctx ctx, Frame.blocksFlush, gap]
    rfl
  unfold GapTaken gapParts
  simp only [ready, idle, front, readout, Bool.false_eq_true, if_false]
  by_cases free : s.sensor.port = none
  swap
  · rw [arbitrate_none (.inl (eport ▸ free)), if_neg free]
    refine ⟨fun _ => ⟨(ectx c).trans ctx, fun _ _ => ewaits, fun _ h => absurd h free⟩, ectx _,
      fun _ => estaged, since.mono fun p hp => ?_⟩
    obtain rfl | hp := List.mem_cons.mp hp
    · simp
    · exact List.mem_append_right _ hp
  obtain ⟨replayOff, flushOff, engineOff⟩ := quiet.resolve_left fun h => h free
  have within : ∀ {q : Part} {qs : List Part}, q ∈ .waits :: ps → .waits ∈ qs → q ∈ qs ++ ps := fun hq hw => by
    obtain rfl | hq := List.mem_cons.mp hq
    · exact List.mem_append_left _ hw
    · exact List.mem_append_right _ hq
  rw [if_pos free]
  by_cases may : s.blocksFlush (other c) = false
  · have condition : e.flushCondition = true := by
      rw [flushCondition_iff, blocked, blocked, epower, eflush]
      obtain ⟨b0, b1⟩ := blocksFlush_both unblocked may
      exact ⟨b0, b1, ready, rfl⟩
    rw [arbitrate_flush (eport.trans free) (ereplay.trans replayOff) ewaits condition estaged]
    refine ⟨fun _ => ⟨(ectx c).trans ctx, fun _ h => absurd free h, fun _ _ => ?_⟩, ectx (other c),
      fun h => absurd ⟨ready, left, idle, free, may⟩ h, ?_⟩
    · intro y more staged'
      obtain ⟨rfl, rfl⟩ := List.cons.inj (front.symm.trans staged')
      refine ⟨rfl, by rw [← egeneration], ?_, ereplay.trans replayOff, rfl, eengine.trans engineOff⟩
      simp only [begunNow, enow]
    · exact (since.mono fun p hp => within hp (by simp)).trans
        ((flushGranted_frame e _ _ _).mono fun p hp => List.mem_append_left _ (by revert p; decide))
  · have blocks : e.flushCondition = false := by
      refine Bool.eq_false_of_not_eq_true fun h => may ?_
      rw [flushCondition_iff, blocked, blocked] at h
      obtain ⟨b0, b1, -⟩ := h
      cases c
      · exact b1
      · exact b0
    rw [arbitrate_cancels (eport.trans free) (ereplay.trans replayOff) ewaits (fun h => absurd (blocks.symm.trans h) (by decide))
      (fun d => gapAdvance_held (by simp [epower, ready]) (by simp [estaged]) d) noRecord,
      grantEngine_of_not_waiting (by exact eengine.trans engineOff)]
    refine ⟨fun _ => ⟨(ectx c).trans ctx, fun _ h => absurd free h, fun h => absurd h may⟩,
      ectx (other c), fun _ => estaged, ?_⟩
    exact (since.mono fun p hp => within hp (by simp)).trans ((flushWaits_frame e false).mono (by simp))

/-- A context in GAP has evaluated, a change elsewhere has followed, and the arbiter ran (R31 to R33, R110). -/
theorem gapTaken_arbitrated (ctx : s.ctx c = some f) (gap : f.phase = .gap) (request : s.request = some r)
    (quiet : s.sensor.port ≠ none ∨ s.noneWaits)
    (frame : unchangedBut ps (s.gapEvaluate c) e) (noRecord : s.sensor.staged ≠ [] → e.noFlushRecord)
    (apart : ((gapSets ++ [Part.time, .power, .generation]).all fun p => !ps.contains p) = true := by decide) :
    GapTaken r c f s.sensor s e.arbitrate ∧ e.arbitrate.ctx (other c) = s.ctx (other c) ∧
      (¬ GapBegins c s → e.arbitrate.sensor.staged = s.sensor.staged) ∧
      unchangedBut (gapParts c s.sensor s ++ ps) s e.arbitrate := by
  by_cases asks : GapAsks c s
  · obtain ⟨-, staged, -⟩ := id asks
    rw [gapEvaluate_asks ctx gap asks] at frame
    obtain ⟨taken, rest⟩ := gapAsked_arbitrated ctx gap quiet asks frame (noRecord staged) apart
    exact ⟨taken r, rest⟩
  · obtain ⟨taken, kept, evaluated, sensor⟩ := gapEvaluate_takes ctx gap request asks
    have still : (s.gapEvaluate c).sensor.port ≠ none ∨ (s.gapEvaluate c).noneWaits := by
      unfold State.noneWaits
      rwa [sensor]
    rw [List.all_append, Bool.and_eq_true] at apart
    obtain ⟨sets, -⟩ := apart
    have sets' := sets
    simp only [gapSets, List.all_cons, List.all_nil, Bool.and_true, Bool.and_eq_true, Bool.not_eq_true'] at sets'
    obtain ⟨contexts, -, -, -, -, -, staged, -, port, waits⟩ := sets'
    rw [arbitrate_none (quietPort_of_unchanged still frame port waits)]
    exact ⟨taken.followed frame sets, (ctx_of_contexts frame _ contexts).trans kept,
      fun _ => (frame.get .staged staged).trans (congrArg SensorLink.staged sensor),
      (evaluated.mono fun p hp => List.mem_append_left _ hp).trans (frame.mono fun p hp => List.mem_append_right _ hp)⟩

end Arbitrated

end Sys2Proof.Machine
end

section
/-! PROOFS of O35 and O30: DISCARD_STAGED and STAGED writes, and the contexts in GAP behind them. -/

set_option Elab.async false

namespace Sys2Proof.Machine

open Sys2Proof

/-! ## The evaluation at one context -/

theorem gapParts_subset {c : CtxId} {l : SensorLink} {s : State} {p : Part} (h : p ∈ gapParts c l s) : p ∈ gapSets := by
  unfold gapParts at h
  revert h
  split
  all_goals (repeat' split)
  all_goals revert p; decide

theorem gapParts_contains (c : CtxId) (l : SensorLink) (s : State) {p : Part} (h : gapSets.contains p = false) :
    (gapParts c l s).contains p = false := by
  rw [← Bool.not_eq_true] at h ⊢
  exact fun there => h (List.contains_iff_mem.mpr (gapParts_subset (List.contains_iff_mem.mp there)))

theorem gapParts_interval (c : CtxId) (l : SensorLink) (s : State) {ps : List Part} (h : ps.contains .interval = false) :
    (gapParts c l s ++ ps).contains .interval = false := by
  rw [List.contains_append, gapParts_contains c l s (by decide), h]
  rfl

theorem gapEvaluate_beside {c : CtxId} {f : Frame} {r : CaptureRequest} {s : State} (ctx : s.ctx c = some f) (gap : f.phase = .gap)
    (request : s.request = some r) : (s.gapEvaluate c).ctx (other c) = s.ctx (other c) := by
  by_cases asks : GapAsks c s
  · rw [gapEvaluate_asks ctx gap asks]
    rfl
  · exact (gapEvaluate_takes ctx gap request asks).2.1

/-- With one context in GAP, the evaluation of both is that of this one (R29). -/
theorem gapEvaluateAll_of_one {c : CtxId} {f : Frame} {r : CaptureRequest} {s : State} (ctx : s.ctx c = some f)
    (gap : f.phase = .gap) (request : s.request = some r) (beside : s.inPhase (other c) .gap = false) :
    s.gapEvaluateAll = s.gapEvaluate c := by
  have kept := gapEvaluate_beside ctx gap request
  unfold State.gapEvaluateAll
  cases c
  · exact gapEvaluate_of_not_gap (by rwa [State.inPhase, show CtxId.c1 = other .c0 from rfl, kept])
  · rw [gapEvaluate_of_not_gap (c := .c0) beside]

theorem gapEvaluate_replayWaits (c : CtxId) (s : State) : (s.gapEvaluate c).sensor.replayWaits = s.sensor.replayWaits := by
  have advanced : (s.gapAdvance c).sensor = s.sensor := sensor_of_unchanged (gapAdvance_frame c s)
  unfold State.gapEvaluate
  dsimp only
  split
  all_goals exact (congrArg SensorLink.replayWaits advanced :)

theorem gapEvaluateAll_replayWaits (s : State) : s.gapEvaluateAll.sensor.replayWaits = s.sensor.replayWaits :=
  (gapEvaluate_replayWaits .c1 _).trans (gapEvaluate_replayWaits .c0 s)

/-- A context in GAP has evaluated and the record in hand is no FLUSH_STAGED: the steps behind it (R31 to R33). -/
theorem gapTaken_followed {c : CtxId} {f : Frame} {r : CaptureRequest} {s e : State} {ps : List Part} (ctx : s.ctx c = some f)
    (gap : f.phase = .gap) (request : s.request = some r)
    (quiet : s.sensor.port ≠ none ∨ s.noneWaits) (frame : unchangedBut ps (s.gapEvaluate c) e) (noRecord : e.noFlushRecord)
    (apart : ((gapSets ++ [Part.time, .power, .generation]).all fun p => !ps.contains p) = true := by decide)
    (interval : ps.contains .interval = false := by decide) :
    GapTaken r c f s.sensor s e.follow ∧ e.follow.ctx (other c) = s.ctx (other c) ∧
      (¬ GapBegins c s → e.follow.sensor.staged = s.sensor.staged) ∧
      timedBut (gapParts c s.sensor s ++ ps) s e.follow ∧
      unchangedBut (.interval :: gapSets ++ ps) s e.follow := by
  obtain ⟨taken, kept, staged, changed⟩ := gapTaken_arbitrated ctx gap request quiet frame (fun _ => noRecord) apart
  have follow : e.follow = e.arbitrate.tidyInterval := by
    unfold State.follow
    rw [checkFlushRecord_other e noRecord]
  have tidy := tidyInterval_frame e.arbitrate
  rw [follow]
  refine ⟨taken.followed tidy, (tidyInterval_ctx _ _).trans kept, fun h => (tidy.get .staged).trans (staged h),
    timedBut_tidyInterval changed (gapParts_interval c _ s interval), ?_⟩
  refine (changed.mono fun p hp => ?_).trans (tidy.mono fun p hp => ?_)
  · obtain hp | hp := List.mem_append.mp hp
    · exact List.mem_append_left _ (List.mem_cons_of_mem _ (gapParts_subset hp))
    · exact List.mem_append_right _ hp
  · exact List.mem_append_left _ (List.mem_singleton.mp hp ▸ List.mem_cons_self)

theorem noFlushRecord_of_unchanged {s t : State} {ps : List Part} (h : s.noFlushRecord) (frame : unchangedBut ps s t)
    (engine : ps.contains .engine = false := by decide) : t.noFlushRecord := by
  unfold State.noFlushRecord at h ⊢
  rwa [show t.engine = s.engine from frame.get .engine engine]

theorem grantFlush_noRecord {s : State} (noRecord : s.noFlushRecord) : unchangedBut gapSets s s.grantFlush := by
  unfold State.grantFlush
  split
  · have waits := flushWaits_frame s false
    refine (waits.widen _).trans ?_
    dsimp only
    split
    · exact (beginFlush_frame _).widen _
    · have advanced : unchangedBut (.stop :: waitStartParts) { s with sensor := { s.sensor with flushWaits := false } } _ :=
        (gapAdvance_frame .c0 _).trans (gapAdvance_frame .c1 _)
      rw [checkFlushRecord_other _ (noFlushRecord_of_unchanged (noFlushRecord_of_unchanged noRecord waits) advanced)]
      exact advanced.widen _
  · exact .refl _ _

/-- With no FLUSH_STAGED in hand and no replay to go on, the arbiter touches the contexts and the port alone. -/
theorem follow_noRecord {s : State} (noRecord : s.noFlushRecord) (replay : s.sensor.port ≠ none ∨ s.sensor.replayWaits = false) :
    unchangedBut (.interval :: gapSets) s s.follow := by
  unfold State.follow State.arbitrate
  have kept : s.grantReplay = s := by
    obtain busy | idle := replay
    · unfold State.grantReplay
      rw [if_neg fun h => busy h.1]
    · exact grantReplay_of_not_waiting idle
  rw [checkFlushRecord_other s noRecord, kept]
  exact ((grantFlush_noRecord noRecord).widen _).trans (((grantEngine_frame _).widen _).trans ((tidyInterval_frame _).widen _))

/-- Evaluation and the arbiter behind it touch the contexts and the port alone, on a port that was quiet. -/
theorem gapEvaluateAll_follow_frame {s : State} (noRecord : s.noFlushRecord) (quiet : s.sensor.port ≠ none ∨ s.noneWaits) :
    unchangedBut (.interval :: gapSets) s s.gapEvaluateAll.follow := by
  have evaluated := gapEvaluateAll_frame s
  refine (evaluated.widen _).trans (follow_noRecord (noFlushRecord_of_unchanged noRecord evaluated) ?_)
  have replay : s.gapEvaluateAll.sensor.replayWaits = s.sensor.replayWaits := gapEvaluateAll_replayWaits s
  rw [show s.gapEvaluateAll.sensor.port = s.sensor.port from evaluated.get .port, replay]
  exact quiet.imp_right fun h => h.1

theorem timedBut.preceded {ps qs : List Part} {s v t : State} (frame : unchangedBut ps s v) (h : timedBut qs v t)
    (interval : ps.contains .interval = false := by decide) : timedBut (qs ++ ps) s t := by
  obtain ⟨changed, stops, goes⟩ := h
  refine ⟨(frame.mono fun p hp => ?_).trans (changed.mono fun p hp => ?_), stops, fun h =>
    (goes h).trans (frame.get .interval interval)⟩
  · exact List.mem_cons_of_mem _ (List.mem_append_right _ hp)
  · obtain rfl | hp := List.mem_cons.mp hp
    · exact List.mem_cons_self
    · exact List.mem_cons_of_mem _ (List.mem_append_left _ hp)

theorem timedBut.mono {ps qs : List Part} {s t : State} (h : timedBut ps s t) (hs : ∀ p, p ∈ ps → p ∈ qs) : timedBut qs s t :=
  ⟨h.1.mono fun p hp => by
    obtain rfl | hp := List.mem_cons.mp hp
    · exact List.mem_cons_self
    · exact List.mem_cons_of_mem _ (hs p hp), h.2⟩

/-! ## The Sensor Link with another staged list -/

theorem sensor_of_parts {s t : State} (same : ∀ p ∈ sensorParts, p.same s t) : t.sensor = s.sensor :=
  sensor_of_unchanged (ps := [Part.time, .freeCount, .pending, .partState, .enable, .halt, .setupAddr, .msi, .line, .issued,
      .ctlRing, .capRing, .bufRing, .tails, .setup, .setupRead, .engine, .queue, .stop, .interval, .flushMark, .capCredit,
      .contexts, .pointer, .latch, .missed, .lines, .trigger, .receiver, .stray, .windows, .order, .inHand, .store, .cache,
      .slots, .cplHead, .coalescing, .cause, .mask])
    (fun p hp => same p (by revert hp; cases p <;> decide))

theorem sensor_of_staged {s t : State} {ps : List Part} (frame : unchangedBut ps s t)
    (apart : ((sensorParts.erase .staged).all fun p => !ps.contains p) = true := by decide) :
    t.sensor = { s.sensor with staged := t.sensor.staged } := by
  have same : ∀ p ∈ sensorParts.erase .staged, p.same s t := fun p hp => frame.get p (by simpa using List.all_eq_true.mp apart p hp)
  refine sensor_of_parts (s := { s with sensor := { s.sensor with staged := t.sensor.staged } }) fun p hp => ?_
  by_cases staged : p = .staged
  · subst staged
    rfl
  · have here := same p ((List.mem_erase_of_ne staged).mpr hp)
    revert here
    cases p <;> first | exact id | exact absurd rfl staged

/-! ## DISCARD_STAGED (R121) -/

/-- DISCARD_STAGED before the contexts in GAP evaluate. -/
def State.stagedDiscarded (u : Setup) (tag : Word) (s : State) : State :=
  ((s.recordTaken u).discardWaiting).finishRecord { kind := 0x09, tag := tag, status := .done }

section Discarded

variable {u : Setup} {s : State} (tag : Word)

theorem stagedDiscarded_frame (u : Setup) (s : State) : unchangedBut (.staged :: recordParts) s (s.stagedDiscarded u tag) :=
  ((recordTaken_frame u s).widen _).trans (((discardWaiting_frame _).widen _).trans ((finishRecord_frame _ _).widen _))

theorem stagedDiscarded_staged (u : Setup) (s : State) :
    (s.stagedDiscarded u tag).sensor.staged = s.sensor.staged.filter Staged.inProgress :=
  ((finishRecord_frame _ _).get .staged).trans (discardWaiting_staged (s.recordTaken u))

theorem stagedDiscarded_done (reading : s.readingControl u) : RecordDone u
    (((s.sensor.staged.filter fun e => !e.inProgress).map fun e =>
        .control { kind := 0x05, tag := e.tag, status := .discarded }) ++
      [.control { kind := 0x09, tag := tag, status := .done }]) s (s.stagedDiscarded u tag) := by
  have discards := discardWaiting_frame (s.recordTaken u)
  have taken : RecordTaken u s (s.recordTaken u).discardWaiting := RecordTaken.followed (t := s.recordTaken u) ⟨rfl, rfl⟩ discards
  have posts := (recordTaken_posts u s).append (discardWaiting_posts (s := s.recordTaken u) reading.2) rfl rfl rfl
  have frame : unchangedBut (.ctlRing :: .engine :: .staged :: postParts) s (s.recordTaken u).discardWaiting :=
    ((recordTaken_frame u s).widen _).trans (discards.widen _)
  exact RecordDone.of_finish reading taken posts frame _

theorem stagedDiscarded_noRecord (u : Setup) (s : State) : (s.stagedDiscarded u tag).noFlushRecord := by
  unfold State.noFlushRecord State.stagedDiscarded
  rw [finishRecord_engine]
  split <;> rfl

end Discarded

/-- Settles O35: the entries complete (`stagedDiscarded`), and a context in GAP evaluates behind them. -/
theorem discardStagedCompletesInOrder : Obligations.DiscardStagedCompletesInOrder := by
  unfold Obligations.DiscardStagedCompletesInOrder
  rintro u tag s reading quiet kept rfl
  have exec_eq : exec (.discardStaged tag) s = .next (s.stagedDiscarded u tag).gapEvaluateAll.follow :=
    congrArg Host.Outcome.next (takeRecord_recordTaken reading _)
  have frame := stagedDiscarded_frame tag u s
  have staged := stagedDiscarded_staged tag u s
  have done := stagedDiscarded_done tag reading
  have noRecord := stagedDiscarded_noRecord tag u s
  have still := quietPort_of_unchanged quiet.1 frame
  rw [exec_eq]
  generalize s.stagedDiscarded u tag = m at *
  have ctx : ∀ c, m.ctx c = s.ctx c := fun c => ctx_of_contexts frame c
  have phase : ∀ c, m.inPhase c .gap = s.inPhase c .gap := fun c => by simp only [State.inPhase, ctx]
  have sensor : m.sensor = { s.sensor with staged := s.sensor.staged.filter Staged.inProgress } :=
    staged ▸ sensor_of_staged frame
  refine ⟨_, rfl, done.followed (gapEvaluateAll_follow_frame noRecord still), fun gap0 gap1 => ?_,
    fun c f r at_ gap beside request begins => ?_⟩
  · rw [gapEvaluateAll_of_not_gap ((phase _).trans gap0) ((phase _).trans gap1), follow_quiet m ⟨still, noRecord⟩]
    exact ⟨((tidyInterval_frame m).get .staged).trans staged, timedBut_tidyInterval frame⟩
  · have at_ := (ctx c).trans at_
    have request : m.request = some r := (congrArg (fun q => q.head?.bind Entry.request) (frame.get .queue)).trans request
    have beside := (phase (other c)).trans beside
    rw [gapEvaluateAll_of_one at_ gap request beside]
    obtain ⟨taken, kept, left, timed, -⟩ := gapTaken_followed (ps := []) at_ gap request still (.refl _ _)
      (noFlushRecord_of_unchanged noRecord (gapEvaluate_frame c m))
    rw [List.append_nil, gapParts_congr (s := s) m.sensor (ctx (other c))] at timed
    rw [sensor] at taken timed left
    have stays : ¬ GapBegins c m := fun ⟨_, left, idle, _⟩ =>
      begins (staged ▸ left) ((frame.get .flush).symm.trans idle)
    exact ⟨left stays, taken.preceded frame (ctx (other c)), kept.trans (ctx _), timed.preceded frame⟩

/-! ## A STAGED write (R115) -/

/-- A STAGED write has joined the list and the engine has given its credit to it (R115, R138). -/
def State.stagedAdded (u : Setup) (e : Staged) (s : State) : State :=
  { s.recordTaken u with
    sensor := { s.sensor with staged := s.sensor.staged ++ [e] }
    engine := { mode := .idle, credit := .none, job := none } }

/-- In DRAINING every WAITING entry is discarded behind it (R129). -/
def State.stagedJoined (u : Setup) (e : Staged) (s : State) : State :=
  if s.link.part = .draining then (s.stagedAdded u e).discardWaiting else s.stagedAdded u e

section Joined

variable {u : Setup} {s : State} {e : Staged}

theorem exec_sensorWriteStaged {a v : Half} {tag : Word} (reading : s.readingControl u) (address : a.toNat < 512) :
    exec (.sensorWriteStaged tag a v) s = .next (if s.sensor.staged.length < 32 then
      ((s.stagedJoined u { address := a, value := v, tag := tag, inProgress := false }).gapEvaluateAll.engineTest).follow
      else (s.recordTaken u).finishRecord { kind := 0x05, tag := tag, status := .stageFull }) := by
  show Host.Outcome.next (s.takeRecord _) = _
  rw [takeRecord_recordTaken reading]
  exact congrArg Host.Outcome.next (if_pos address)

theorem stagedAdded_frame (u : Setup) (e : Staged) (s : State) :
    unchangedBut [.ctlRing, .engine, .issued, .staged] s (s.stagedAdded u e) := by
  intro p hp; cases p <;> first | rfl | exact absurd (by decide) hp

theorem stagedJoined_frame (u : Setup) (e : Staged) (s : State) :
    unchangedBut (.staged :: recordParts) s (s.stagedJoined u e) := by
  have added := stagedAdded_frame u e s
  unfold State.stagedJoined
  split
  · exact (added.widen _).trans ((discardWaiting_frame _).widen _)
  · exact added.widen _

theorem stagedJoined_frame_undrained (u : Setup) (e : Staged) (h : s.link.part ≠ .draining) :
    unchangedBut [.ctlRing, .engine, .issued, .staged] s (s.stagedJoined u e) := by
  unfold State.stagedJoined
  rw [if_neg h]
  exact stagedAdded_frame u e s

theorem stagedJoined_staged (u : Setup) (e : Staged) (s : State) : (s.stagedJoined u e).sensor.staged =
    if s.link.part = .draining then (s.sensor.staged ++ [e]).filter Staged.inProgress else s.sensor.staged ++ [e] := by
  unfold State.stagedJoined
  split
  · exact discardWaiting_staged _
  · rfl

theorem stagedJoined_engine (u : Setup) (e : Staged) (s : State) :
    (s.stagedJoined u e).engine = { mode := .idle, credit := .none, job := none } := by
  unfold State.stagedJoined
  split
  · exact (discardWaiting_frame _).get .engine
  · rfl

theorem stagedJoined_taken (u : Setup) (e : Staged) (s : State) : RecordTaken u s (s.stagedJoined u e) := by
  have added : RecordTaken u s (s.stagedAdded u e) := ⟨rfl, rfl⟩
  unfold State.stagedJoined
  split
  · exact added.followed (discardWaiting_frame _)
  · exact added

theorem stagedJoined_issued (u : Setup) (e : Staged) (h : s.link.part ≠ .draining) :
    (s.stagedJoined u e).link.issued = s.link.issued ++ [recordProgress u s] := by
  unfold State.stagedJoined
  rw [if_neg h]
  rfl

theorem stagedJoined_posts (reading : s.readingControl u) (h : s.link.part = .draining) :
    Posts u [recordProgress u s] (((s.sensor.staged ++ [e]).filter fun e => !e.inProgress).map fun e =>
      .control { kind := 0x05, tag := e.tag, status := .discarded }) s (s.stagedJoined u e) := by
  have added : Posts u [recordProgress u s] [] s (s.stagedAdded u e) := recordTaken_posts u s
  unfold State.stagedJoined
  rw [if_pos h]
  exact added.append (discardWaiting_posts reading.2) rfl rfl rfl

theorem engineTest_frame_idle {w : State} (idle : w.engine.mode = .idle) : unchangedBut [.engine] w w.engineTest := by
  intro p hp
  by_cases ring : p = .ctlRing
  · subst ring
    simp only [Part.same, engineTest_ring_of_idle idle]
  · exact engineTest_frame w p (by simp_all)

/-- The engine behind a STAGED write: IDLE, or asking for the next record's credit (R133, R138). -/
theorem stagedJoined_tested {x : State} {ps : List Part} (frame : unchangedBut ps (s.stagedJoined u e) x)
    (apart : ([Part.engine, .ctlRing, .tails, .partState].all fun p => !ps.contains p) = true := by decide) :
    x.engineTest.engine = engineAfterRecord u s ∧ unchangedBut [.engine] x x.engineTest := by
  simp only [List.all_cons, List.all_nil, Bool.and_true, Bool.and_eq_true, Bool.not_eq_true'] at apart
  obtain ⟨engine, ring, tails, part⟩ := apart
  have joined := stagedJoined_frame u e s
  have idle : x.engine = { mode := .idle, credit := .none, job := none } :=
    (frame.get .engine engine).trans (stagedJoined_engine u e s)
  have head : x.ring.ctlHead = nextControlHead u s :=
    (congrArg Prod.fst (frame.get .ctlRing ring)).trans (stagedJoined_taken u e s).1
  have tail : x.ring.ctlTail = s.ring.ctlTail :=
    (congrArg Prod.fst (frame.get .tails tails)).trans (congrArg Prod.fst (joined.get .tails))
  have partState : x.link.part = s.link.part := (frame.get .partState part).trans (joined.get .partState)
  refine ⟨?_, engineTest_frame_idle (by rw [idle])⟩
  have waiting : x.ringWaiting .control = true ↔ nextControlHead u s ≠ s.ring.ctlTail.toNat := by
    rw [← head, ← tail]
    exact decide_eq_true_iff
  unfold State.engineTest engineAfterRecord
  simp only [waiting, partState, idle]
  split
  · rfl
  · exact idle

theorem noFlushRecord_of_engineAfterRecord {x : State} (h : x.engine = engineAfterRecord u s) : x.noFlushRecord := by
  unfold State.noFlushRecord engineAfterRecord at *
  rw [h]
  split <;> rfl

/-- What a STAGED write leaves at the Control Ring and the engine, whatever the contexts do behind it. -/
theorem stagedJoined_followed (quiet : s.sensor.port ≠ none ∨ s.noneWaits) :
    RecordTaken u s (s.stagedJoined u e).gapEvaluateAll.engineTest.follow ∧
      (s.stagedJoined u e).gapEvaluateAll.engineTest.follow.engine = engineAfterRecord u s ∧
      unchangedBut (.interval :: .engine :: gapSets) (s.stagedJoined u e)
        (s.stagedJoined u e).gapEvaluateAll.engineTest.follow := by
  have still := quietPort_of_unchanged quiet (stagedJoined_frame u e s)
  have evaluated := gapEvaluateAll_frame (s.stagedJoined u e)
  obtain ⟨engine, tested⟩ := stagedJoined_tested evaluated
  have replay : (s.stagedJoined u e).gapEvaluateAll.engineTest.sensor.port ≠ none ∨
      (s.stagedJoined u e).gapEvaluateAll.engineTest.sensor.replayWaits = false := by
    rw [sensor_of_unchanged tested, gapEvaluateAll_replayWaits,
      show (s.stagedJoined u e).gapEvaluateAll.sensor.port = _ from evaluated.get .port]
    exact still.imp_right fun h => h.1
  have followed := follow_noRecord (noFlushRecord_of_engineAfterRecord engine) replay
  have all : unchangedBut (.interval :: .engine :: gapSets) (s.stagedJoined u e)
      (s.stagedJoined u e).gapEvaluateAll.engineTest.follow :=
    (evaluated.widen _).trans ((tested.widen _).trans (followed.widen _))
  exact ⟨(stagedJoined_taken u e s).followed all, (followed.get .engine).trans engine, all⟩

/-- With settings staged and nothing in READOUT, a context in GAP asks for a flush (R32). -/
theorem gapEvaluate_ready {w : State} (power : w.sensor.power = .ready) (staged : w.sensor.staged ≠ [])
    (flush : w.sensor.flush = none) (c : CtxId) (beside : w.inPhase (other c) .readout = false) :
    w.gapEvaluate c = { w with sensor := { w.sensor with flushWaits := w.inPhase c .gap || w.sensor.flushWaits } } := by
  unfold State.gapEvaluate
  rw [gapAdvance_held (by simp [power]) fun _ h => staged h.1]
  by_cases gap : w.inPhase c .gap = true
  · rw [if_pos ⟨gap, power, staged, flush, beside⟩, gap]
    rfl
  · rw [if_neg fun h => gap h.1]
    rw [Bool.not_eq_true] at gap
    rw [gap]
    rfl

theorem gapEvaluateAll_ready {w : State} (power : w.sensor.power = .ready) (staged : w.sensor.staged ≠ [])
    (flush : w.sensor.flush = none) (read0 : w.inPhase .c0 .readout = false) (read1 : w.inPhase .c1 .readout = false)
    (gap : w.inPhase .c0 .gap = true ∨ w.inPhase .c1 .gap = true) :
    w.gapEvaluateAll = { w with sensor := { w.sensor with flushWaits := true } } := by
  unfold State.gapEvaluateAll
  rw [gapEvaluate_ready power staged flush .c0 read1]
  refine (gapEvaluate_ready (w := { w with sensor := { w.sensor with flushWaits := w.inPhase .c0 .gap || w.sensor.flushWaits } })
    power staged flush .c1 read0).trans ?_
  obtain gap | gap := gap
  · simp [gap]
  · simp only [State.inPhase, State.ctx] at gap ⊢
    simp [gap]

/-- A STAGED write finds a context in GAP and nothing that holds its flush back: the flush begins (R32, R116, R117). -/
theorem stagedJoined_begins {y : Staged} {rest : List Staged} (front : s.sensor.staged ++ [e] = y :: rest)
    (running : s.link.part ≠ .draining) (power : s.sensor.power = .ready) (flush : s.sensor.flush = none)
    (free : s.sensor.port = none) (quiet : s.noneWaits) (b0 : s.blocksFlush .c0 = false) (b1 : s.blocksFlush .c1 = false)
    (gap : s.inPhase .c0 .gap = true ∨ s.inPhase .c1 .gap = true) :
    (s.stagedJoined u e).gapEvaluateAll.engineTest.follow.sensor.staged = { y with inProgress := true } :: rest ∧
      (s.stagedJoined u e).gapEvaluateAll.engineTest.follow.sensor.flush =
        some { generation := s.sensor.generation + 1, taken := 1 } ∧
      (s.stagedJoined u e).gapEvaluateAll.engineTest.follow.sensor.port = some (begunNow .flush (.write y.address y.value) s) ∧
      timedBut [.ctlRing, .engine, .issued, .staged, .flush, .port, .waits] s
        (s.stagedJoined u e).gapEvaluateAll.engineTest.follow := by
  have joined := stagedJoined_frame_undrained u e running
  have staged := (stagedJoined_staged u e s).trans (if_neg running)
  have evaluated := gapEvaluateAll_frame (s.stagedJoined u e)
  obtain ⟨engine, tested⟩ := stagedJoined_tested evaluated
  have read : ∀ c, s.blocksFlush c = false → (s.stagedJoined u e).inPhase c .readout = false := fun c h => by
    simp only [State.blocksFlush, Bool.or_eq_false_iff] at h
    rw [State.inPhase, ctx_of_contexts joined c]
    exact h.2
  have phase : ∀ c p, (s.stagedJoined u e).inPhase c p = s.inPhase c p := fun c p => by
    simp only [State.inPhase, ctx_of_contexts joined c]
  have sensor := sensor_of_staged joined
  rw [staged, front] at sensor
  rw [gapEvaluateAll_ready (by rw [sensor]; exact power) (by rw [sensor]; simp) (by rw [sensor]; exact flush) (read .c0 b0)
    (read .c1 b1) (by simpa only [phase] using gap)] at engine tested ⊢
  have before : unchangedBut [.ctlRing, .engine, .issued, .staged, .waits] s
      (State.engineTest { s.stagedJoined u e with sensor := { (s.stagedJoined u e).sensor with flushWaits := true } }) :=
    (joined.widen _).trans (((flushWaits_frame _ true).widen _).trans (tested.widen _))
  have link : _ = ({ s.sensor with staged := y :: rest, flushWaits := true } : SensorLink) :=
    (sensor_of_unchanged tested).trans (congrArg (fun l : SensorLink => { l with flushWaits := true }) sensor)
  generalize State.engineTest { s.stagedJoined u e with sensor := { (s.stagedJoined u e).sensor with flushWaits := true } } = x at *
  have may : x.flushCondition = true := by
    rw [flushCondition_iff, blocksFlush_congr (ctx_of_contexts before .c0), blocksFlush_congr (ctx_of_contexts before .c1), link]
    exact ⟨b0, b1, power, flush⟩
  have begun := arbitrate_flush (s := x) (by rw [link]; exact free) (by rw [link]; exact quiet.1) (by rw [link]) may (by rw [link])
  have now : x.now = s.now := before.get .time
  unfold State.follow
  rw [checkFlushRecord_other x (noFlushRecord_of_engineAfterRecord engine), begun]
  refine ⟨by rw [tidyInterval_sensor], by rw [tidyInterval_sensor, link], ?_, timedBut_tidyInterval ?_⟩
  · rw [tidyInterval_sensor]
    simp only [begunNow, now]
  · exact (before.widen _).trans ((flushGranted_frame x _ _ _).widen _)

/-- A STAGED write and the context in GAP that evaluates behind it (R31 to R33). -/
theorem stagedJoined_gap {c : CtxId} {f : Frame} {r : CaptureRequest} (ctx : s.ctx c = some f) (gap : f.phase = .gap)
    (beside : s.inPhase (other c) .gap = false) (request : s.request = some r) (quiet : s.sensor.port ≠ none ∨ s.noneWaits) :
    let m := s.stagedJoined u e
    let t := m.gapEvaluateAll.engineTest.follow
    GapTaken r c f m.sensor s t ∧ t.ctx (other c) = s.ctx (other c) ∧ (¬ GapBegins c m → t.sensor.staged = m.sensor.staged) ∧
      timedBut (gapParts c m.sensor s ++ [.engine]) m t ∧ unchangedBut (.interval :: gapSets ++ [.engine]) m t := by
  have frame := stagedJoined_frame u e s
  have same := ctx_of_contexts frame
  have still := quietPort_of_unchanged quiet frame
  have at_ := (same c).trans ctx
  have request : (s.stagedJoined u e).request = some r :=
    (congrArg (fun q => q.head?.bind Entry.request) (frame.get .queue)).trans request
  have beside : (s.stagedJoined u e).inPhase (other c) .gap = false := by rwa [State.inPhase, same]
  have evaluated := gapEvaluateAll_frame (s.stagedJoined u e)
  obtain ⟨engine, tested⟩ := stagedJoined_tested evaluated
  rw [gapEvaluateAll_of_one at_ gap request beside] at engine tested
  obtain ⟨taken, kept, left, timed, all⟩ := gapTaken_followed at_ gap request still tested
    (noFlushRecord_of_engineAfterRecord engine)
  rw [gapParts_congr (s := s) (s.stagedJoined u e).sensor (same (other c))] at timed
  dsimp only
  rw [gapEvaluateAll_of_one at_ gap request beside]
  exact ⟨taken.preceded frame (same _), kept.trans (same _), left, timed, all⟩

end Joined

/-- Settles O30: the entry joins the list (`stagedJoined`), and what follows at the engine, the contexts and the port. -/
theorem stagedWrites : Obligations.StagedWrites := by
  unfold Obligations.StagedWrites
  intro u tag a v s reading address quiet staged added
  rw [exec_sensorWriteStaged reading address]
  generalize entry : ({ address := a, value := v, tag := tag, inProgress := false } : Staged) = e at *
  have frame := stagedJoined_frame u e s
  have list := stagedJoined_staged u e s
  rw [← added] at list
  obtain ⟨taken, engine, followed⟩ := stagedJoined_followed (u := u) (e := e) quiet.1
  have still := quietPort_of_unchanged quiet.1 frame
  refine ⟨fun full => ?_, fun room gap0 gap1 => ?_, fun room running power flush free b0 b1 gap => ?_,
    fun room c f r ctx gap beside request view viewed empties => ?_⟩
  · rw [if_neg (Nat.not_lt.mpr full)]
    exact ⟨_, rfl, recordFinished_done reading _, recordFinished_frame u _ s⟩
  · rw [if_pos room]
    refine ⟨_, rfl, taken, engine, ?_⟩
    have phase : ∀ c, (s.stagedJoined u e).inPhase c .gap = s.inPhase c .gap := fun c => by
      simp only [State.inPhase, ctx_of_contexts frame c]
    obtain ⟨tested_engine, tested⟩ := stagedJoined_tested (u := u) (s := s) (e := e) (.refl [] _)
    rw [gapEvaluateAll_of_not_gap ((phase _).trans gap0) ((phase _).trans gap1),
      follow_quiet _ ⟨quietPort_of_unchanged still tested, noFlushRecord_of_engineAfterRecord tested_engine⟩]
    have behind : unchangedBut [.engine, .interval] (s.stagedJoined u e) (s.stagedJoined u e).engineTest.tidyInterval :=
      (tested.widen _).trans ((tidyInterval_frame _).widen _)
    refine ⟨fun running => ⟨?_, ?_, timedBut_tidyInterval ?_⟩, fun draining => ⟨?_, ?_, timedBut_tidyInterval ?_⟩⟩
    · exact (behind.get .staged).trans (list.trans (if_neg running))
    · exact (behind.get .issued).trans (stagedJoined_issued u e running)
    · exact ((stagedJoined_frame_undrained u e running).widen _).trans (tested.widen _)
    · exact (behind.get .staged).trans (list.trans (if_pos draining))
    · rw [added]
      exact (stagedJoined_posts reading draining).followed behind
    · exact (frame.widen _).trans (tested.widen _)
  · rw [if_pos room]
    cases staged with
    | nil => simp at added
    | cons y rest =>
      obtain ⟨begun, flushing, port, timed⟩ := stagedJoined_begins (u := u) added.symm running power flush free
        (quiet.1.resolve_left fun h => h free) b0 b1 gap
      exact ⟨_, rfl, taken, engine, begun, flushing, port, timed⟩
  · rw [if_pos room]
    obtain ⟨gapTaken, kept, left, timed, all⟩ := stagedJoined_gap (u := u) (e := e) ctx gap beside request quiet.1
    have sensor : (s.stagedJoined u e).sensor = view := by
      rw [viewed, ← list]
      exact sensor_of_staged frame
    rw [sensor] at gapTaken left timed
    refine ⟨_, rfl, taken, engine, gapTaken, kept, fun stays => left fun begins => ?_, fun running => ⟨?_, ?_⟩,
      fun draining => ⟨?_, ?_⟩⟩
    · obtain ⟨ready, some_, idle, free, unblocked⟩ := begins
      rw [sensor] at ready some_ idle free
      rw [blocksFlush_congr (ctx_of_contexts frame (other c))] at unblocked
      obtain h | h | h | h | h := stays
      · exact some_ h
      · exact h ready
      · exact h idle
      · exact h free
      · rw [h] at unblocked
        cases unblocked
    · exact (all.get .issued).trans (stagedJoined_issued u e running)
    · refine (timed.preceded (stagedJoined_frame_undrained u e running)).mono fun p hp => ?_
      rw [List.append_assoc] at hp
      exact (List.mem_append.mp hp).elim (List.mem_append_left _) fun tail => List.mem_append_right _ (by revert tail; clear hp; revert p; decide)
    · rw [added]
      exact (stagedJoined_posts reading draining).followed all
    · refine (timed.preceded frame).mono fun p hp => ?_
      rw [List.append_assoc] at hp
      exact (List.mem_append.mp hp).elim (List.mem_append_left _) fun tail => List.mem_append_right _ (by revert tail; clear hp; revert p; decide)

end Sys2Proof.Machine
end

section
/-! PROOFS of O44 and O42: the end of a readout, and FRAME_START and stray packets. -/

set_option Elab.async false

namespace Sys2Proof.Machine

open Sys2Proof

/-! ## A readout ends (R45) -/

/-- The context of a readout has closed with frame `f`, and the receiver is as in `v` (R45, R78, R84, R85). -/
def State.readoutClosed (c : CtxId) (f : Frame) (v : Receiver) (s : State) : State :=
  { s.setCtx c (some (f.closed f.endedOutcome)) with
    sched := { s.sched with endCause := s.sched.endCause <|> f.outcome.bind FrameOutcome.endCause }
    recv := v }

/-- The receiver has left the readout (R78, R84, R85). -/
structure ReceiverLeft (s : State) (v : Receiver) : Prop where
  state : v.state = .idle
  served : v.served = none
  timer : v.timer = none
  expected : v.expected = s.recv.expected

section Closed

variable {c : CtxId} {f : Frame} {v : Receiver} {s : State}

theorem endedOutcome_cause (f : Frame) : (f.outcome.getD f.endedOutcome).endCause = f.outcome.bind FrameOutcome.endCause := by
  have none_ : f.endedOutcome.endCause = none := by
    unfold Frame.endedOutcome
    (repeat' split) <;> rfl
  cases f.outcome with
  | none => exact none_
  | some o => rfl

theorem readoutClosed_frame (c : CtxId) (f : Frame) (v : Receiver) (s : State) :
    unchangedBut [.receiver, .stray, .contexts, .stop] s (s.readoutClosed c f v) := by
  intro p hp
  cases c <;> cases p <;> first | rfl | exact absurd (by decide) hp

theorem readoutClosed_ctx : (s.readoutClosed c f v).ctx c = some (f.closed f.endedOutcome) := by cases c <;> rfl

theorem readoutClosed_ctx_other : (s.readoutClosed c f v).ctx (other c) = s.ctx (other c) := by cases c <;> rfl

theorem readoutClosed_phase (p : Phase) : (s.readoutClosed c f v).inPhase (other c) p = s.inPhase (other c) p := by
  simp only [State.inPhase, readoutClosed_ctx_other]

/-- The readout of a context ends: it closes, and the other context goes on (R43, R45). -/
theorem readoutEnd_eq (phase : f.phase = .readout) : State.readoutEnd c { s.setCtx c (some f) with recv := v } =
    if (s.ctx (other c)).any (fun g => decide (g.phase = .exposing) && g.endPending) then
      (s.readoutClosed c f v).exposureEnd (other c)
    else (s.readoutClosed c f v).gapEvaluate (other c) := by
  have at_ : ({ s.setCtx c (some f) with recv := v } : State).ctx c = some f := by cases c <;> rfl
  have closed : State.closeFrame c f.readoutOutcome { s.setCtx c (some f) with recv := v } = s.readoutClosed c f v := by
    rw [closeFrame_eq at_, show f.readoutOutcome = f.endedOutcome from rfl, endedOutcome_cause]
    cases c <;> rfl
  unfold State.readoutEnd
  rw [at_]
  dsimp only
  rw [if_pos phase, closed, readoutClosed_ctx_other]

/-- The context whose readout has ended, with what the receiver left. -/
def State.readoutLeft (c : CtxId) (f : Frame) (v : Receiver) (s : State) : State := { s.setCtx c (some f) with recv := v }

theorem readoutEnded_stray : ((s.readoutLeft c f v).readoutEnd c).follow.recv.stray = v.stray :=
  ((follow_frame _).get .stray).trans ((readoutEnd_frame c _).get .stray)

/-- The end of a readout beside a context that is not in GAP (R43, R45). -/
theorem readoutEnd_ended (phase : f.phase = .readout) (left : ReceiverLeft s v) (quiet : s.portQuiet)
    (beside : s.inPhase (other c) .gap = false) :
    ReadoutEnded c f s ((s.readoutLeft c f v).readoutEnd c).follow ∧
      timedBut [.receiver, .stray, .contexts, .stop, .lines] s ((s.readoutLeft c f v).readoutEnd c).follow := by
  have closed := readoutClosed_frame c f v s
  unfold State.readoutLeft ReadoutEnded
  rw [readoutEnd_eq phase]
  by_cases deferred : (s.ctx (other c)).any (fun g => decide (g.phase = .exposing) && g.endPending) = true
  · rw [if_pos deferred, if_pos deferred]
    obtain ⟨g, at_, -⟩ := (Option.any_eq_true _ _).mp deferred
    have there : (s.readoutClosed c f v).ctx (other c) = some g := readoutClosed_ctx_other.trans at_
    have ended := exposureEnd_frame (other c) (s.readoutClosed c f v)
    obtain ⟨ctx, expose, strobe, recv⟩ := exposureEnd_ended there
    have kept := exposureEnd_ctx_other there
    rw [other_other, readoutClosed_ctx] at kept
    have cause : (State.exposureEnd (other c) (s.readoutClosed c f v)).sched.endCause = _ := (Prod.mk.inj (ended.get .stop)).2
    rw [follow_quiet _ (portQuiet_of_unchanged quiet (unchangedBut.trans (closed.widen [.receiver, .stray, .contexts, .stop, .lines])
      (ended.widen _)))]
    refine ⟨⟨by rw [tidyInterval_ctx, kept], (Prod.mk.inj ((tidyInterval_frame _).get .stop)).2.trans cause, ?_⟩,
      timedBut_tidyInterval ((closed.widen _).trans (ended.widen _))⟩
    intro g' at'
    obtain rfl : g = g' := Option.some.inj (at_.symm.trans at')
    have time : (s.readoutClosed c f v).now = s.now := closed.get .time
    have held : (s.readoutClosed c f v).ring.setup = s.ring.setup := closed.get .setup
    rw [time] at ctx
    rw [tidyInterval_ctx, tidyInterval_seq, tidyInterval_recv, recv]
    exact ⟨ctx, expose, strobe, rfl, rfl, rfl, by simp only [expecting, time, held]⟩
  · rw [if_neg deferred, if_neg deferred, gapEvaluate_of_not_gap ((readoutClosed_phase _).trans beside),
      follow_quiet _ (portQuiet_of_unchanged quiet closed)]
    refine ⟨⟨by rw [tidyInterval_ctx, readoutClosed_ctx], (Prod.mk.inj ((tidyInterval_frame _).get .stop)).2, ?_⟩,
      timedBut_tidyInterval (closed.widen _)⟩
    rw [tidyInterval_ctx, tidyInterval_seq, tidyInterval_recv, readoutClosed_ctx_other]
    exact ⟨rfl, by cases c <;> rfl, left.state, left.served, left.timer, left.expected⟩

/-- The end of a readout beside a context in GAP, which evaluates (R31 to R33, R45). -/
theorem readoutEnd_besideGap (phase : f.phase = .readout) (quiet : s.portQuiet) :
    ReadoutEndedBesideGap c f s ((s.readoutLeft c f v).readoutEnd c).follow := by
  rintro g r at_ gap request m rfl
  have closed := readoutClosed_frame c f v s
  have there : (s.readoutClosed c f v).ctx (other c) = some g := readoutClosed_ctx_other.trans at_
  have pending : ¬ (s.ctx (other c)).any (fun g => decide (g.phase = .exposing) && g.endPending) = true := by
    simp [at_, gap]
  have shut : (s.readoutClosed c f v).inPhase (other (other c)) .gap = false := by
    rw [other_other, inPhase_of_ctx readoutClosed_ctx]
    rfl
  unfold State.readoutLeft
  rw [readoutEnd_eq phase, if_neg pending]
  have link : (s.readoutClosed c f v).sensor = s.sensor := sensor_of_unchanged closed
  obtain ⟨taken, kept, -, timed, -⟩ := gapTaken_followed (ps := []) there gap request
    (quietPort_of_unchanged quiet.1 closed) (.refl _ _)
    (noFlushRecord_of_unchanged (noFlushRecord_of_unchanged quiet.2 closed) (gapEvaluate_frame _ _))
  rw [other_other, readoutClosed_ctx] at kept
  rw [link] at taken timed
  have received : unchangedBut [.receiver, .stray] { s.setCtx c (some (f.closed f.endedOutcome)) with
      sched := { s.sched with endCause := s.sched.endCause <|> f.outcome.bind FrameOutcome.endCause } }
      (s.readoutClosed c f v) := by
    intro p hp
    cases c <;> cases p <;> first | rfl | exact absurd (by decide) hp
  refine ⟨kept, taken.preceded received (by cases c <;> rfl), ?_⟩
  rw [gapParts_congr (s := { s.setCtx c (some (f.closed f.endedOutcome)) with
    sched := { s.sched with endCause := s.sched.endCause <|> f.outcome.bind FrameOutcome.endCause } }) s.sensor
    (by cases c <;> rfl), List.append_nil] at timed
  exact timed.preceded closed

/-- A FLUSH_STAGED that asks for its flush does so whether or not the port is asked for already (R120). -/
theorem follow_asked {y : State} {tag : Word} (job : y.engine.job = some { tag := tag, work := .flush })
    (staged : y.sensor.staged ≠ []) (may : y.flushCondition = true) (waits : Bool) :
    State.follow { y with sensor := { y.sensor with flushWaits := waits } } = y.follow := by
  unfold State.follow
  rw [checkFlushRecord_asks (s := { y with sensor := { y.sensor with flushWaits := waits } }) job staged may,
    checkFlushRecord_asks job staged may]

/-- The end of a readout that lifts what held a flush back (R116, R120). -/
theorem readoutEnd_lifts (phase : f.phase = .readout) (left : ReceiverLeft s v) :
    ReadoutLiftsFlush c f s ((s.readoutLeft c f v).readoutEnd c).follow := by
  intro record alone power flush staged unblocked
  have closed := readoutClosed_frame c f v s
  have link : (s.readoutClosed c f v).sensor = s.sensor := sensor_of_unchanged closed
  have pending : ¬ (s.ctx (other c)).any (fun g => decide (g.phase = .exposing) && g.endPending) = true := fun h => by
    obtain ⟨g, at_, exposing⟩ := (Option.any_eq_true _ _).mp h
    rw [blocksFlush_of_ctx at_, Frame.blocksFlush_of_phase (of_decide_eq_true (Bool.and_eq_true _ _ ▸ exposing).1)] at unblocked
    cases unblocked
  have b : (s.readoutClosed c f v).blocksFlush c = false ∧ (s.readoutClosed c f v).blocksFlush (other c) = false :=
    ⟨blocksFlush_closed readoutClosed_ctx, (blocksFlush_congr readoutClosed_ctx_other).trans unblocked⟩
  obtain ⟨b0, b1⟩ := blocksFlush_both b.1 b.2
  obtain ⟨tag, job⟩ := flushRecord_job record
  have job' : (s.readoutClosed c f v).engine.job = some { tag := tag, work := .flush } := by
    rw [show (s.readoutClosed c f v).engine = s.engine from closed.get .engine, job]
  have evaluated : (State.gapEvaluate (other c) (s.readoutClosed c f v)).follow = (s.readoutClosed c f v).follow := by
    rw [gapEvaluate_ready (by rw [link, power]) (by rw [link]; exact staged) (by rw [link, flush])]
    · exact follow_asked job' (by rw [link]; exact staged)
        ((flushCondition_iff _).mpr ⟨b0, b1, by rw [link, power], by rw [link, flush]⟩) _
    · rw [other_other, inPhase_of_ctx readoutClosed_ctx]
      rfl
  unfold State.readoutLeft
  rw [readoutEnd_eq phase, if_neg pending, evaluated]
  obtain ⟨behind, begins, waits⟩ := follow_lifts ⟨record, alone, power, flush, staged⟩ closed b0 b1
  have stop := behind.get .stop
  simp only [Part.same, Prod.mk.injEq] at stop
  refine ⟨(ctx_of_contexts behind c).trans readoutClosed_ctx, (ctx_of_contexts behind _).trans readoutClosed_ctx_other,
    stop.1.trans rfl, stop.2.trans rfl, ?_⟩
  rw [recv_of_unchanged behind]
  exact ⟨left.state, left.served, left.timer, left.expected, begins, waits⟩

end Closed

/-! ## The commands that end a readout -/

theorem timedBut.without {ps : List Part} {s t : State} (h : timedBut ps s t) (p : Part) (same : p.same s t) :
    timedBut (ps.erase p) s t := by
  refine ⟨fun q hq => ?_, h.2⟩
  by_cases here : q = p
  · exact here ▸ same
  · refine h.1 q fun there => hq ?_
    obtain rfl | there := List.mem_cons.mp there
    · exact List.mem_cons_self
    · exact List.mem_cons_of_mem _ ((List.mem_erase_of_ne here).mpr there)

/-- What the end of a readout does at the other context and at the port, the stray count kept. -/
theorem readoutLeft_ends {c : CtxId} {f : Frame} {v : Receiver} {s : State} (phase : f.phase = .readout) (left : ReceiverLeft s v)
    (stray : v.stray = s.recv.stray) :
    (s.portQuiet → s.inPhase (other c) .gap = false →
        ReadoutEnded c f s ((s.readoutLeft c f v).readoutEnd c).follow ∧
          timedBut [.receiver, .contexts, .stop, .lines] s ((s.readoutLeft c f v).readoutEnd c).follow) ∧
      (s.portQuiet → ReadoutEndedBesideGap c f s ((s.readoutLeft c f v).readoutEnd c).follow) ∧
      ReadoutLiftsFlush c f s ((s.readoutLeft c f v).readoutEnd c).follow ∧
      ((s.readoutLeft c f v).readoutEnd c).follow.recv.stray = s.recv.stray := by
  have kept := (readoutEnded_stray (c := c) (f := f) (v := v) (s := s)).trans stray
  refine ⟨fun quiet beside => ?_, readoutEnd_besideGap phase, readoutEnd_lifts phase left, kept⟩
  obtain ⟨ended, timed⟩ := readoutEnd_ended phase left quiet beside
  exact ⟨ended, timed.without .stray kept⟩

theorem receiverIdle_setCtx (c : CtxId) (f : Frame) (s : State) : (s.setCtx c (some f)).receiverIdle =
    s.readoutLeft c f { s.recv with state := .idle, served := none, timer := none } := by
  cases c <;> rfl

section Commands

variable {c : CtxId} {f : Frame} {s : State}

theorem exec_frameEnd (served : s.recv.served = some c) (receiving : s.recv.state = .receiving) (ctx : s.ctx c = some f)
    (count : Half) : exec (.frameEnd count) s = .next ((s.readoutLeft c
      { f with
        missingLines := f.missingLines + (s.lines - s.recv.expected)
        flags := { f.flags with
          sequence := f.flags.sequence || decide (s.recv.expected < s.lines ∨ count.toNat ≠ s.lines) } }
      { s.recv with state := .idle, served := none, timer := none }).readoutEnd c).follow := by
  have run : exec (.frameEnd count) s = .next (((State.updCtx c (fun f =>
      { f with missingLines := f.missingLines + (s.lines - s.recv.expected) })
      (if s.recv.expected < s.lines ∨ count.toNat ≠ s.lines then s.updCtx c Frame.flagSequence else s)).receiverIdle.readoutEnd
        c).follow) := by
    show execFrameEnd count s = _
    unfold execFrameEnd
    rw [receiving, served]
  rw [run, ← receiverIdle_setCtx]
  by_cases flagged : s.recv.expected < s.lines ∨ count.toNat ≠ s.lines
  · rw [if_pos flagged, updCtx_of_ctx ctx, updCtx_setCtx, decide_eq_true flagged, Bool.or_true]
    rfl
  · rw [if_neg flagged, updCtx_of_ctx ctx, decide_eq_false flagged, Bool.or_false]

theorem exec_frameTimerExpiry (served : s.recv.served = some c) (busy : s.recv.state ≠ .idle) (ctx : s.ctx c = some f)
    (due : isDue s.now s.recv.timer = true) : exec .frameTimerExpiry s = .next ((s.readoutLeft c
      { f with timedOut := true } { s.recv with state := .idle, served := none, timer := none }).readoutEnd c).follow := by
  rw [← receiverIdle_setCtx, ← updCtx_of_ctx ctx fun f => { f with timedOut := true }]
  show execFrameTimerExpiry s = _
  unfold execFrameTimerExpiry
  rw [served]
  cases state : s.recv.state
  · exact absurd state busy
  all_goals exact congrArg Host.Outcome.next (if_pos due)

theorem exec_frameTimerExpiry_early (served : s.recv.served = some c)
    (h : s.recv.state = .idle ∨ isDue s.now s.recv.timer = false) : exec .frameTimerExpiry s = .next s := by
  show execFrameTimerExpiry s = _
  unfold execFrameTimerExpiry
  rw [served]
  cases state : s.recv.state
  · rfl
  all_goals exact congrArg Host.Outcome.next (if_neg (by simpa [state] using h))

end Commands

/-- Settles O44: the frame as the receiver leaves it, then `readoutLeft_ends`. -/
theorem readoutsEnd : Obligations.ReadoutsEnd := by
  unfold Obligations.ReadoutsEnd
  intro c f s served ctx phase
  have receiver : ReceiverLeft s { s.recv with state := .idle, served := none, timer := none } := ⟨rfl, rfl, rfl, rfl⟩
  refine ⟨fun count receiving ended is => ?_, fun busy due => ?_, exec_frameTimerExpiry_early served⟩
  · subst is
    exact ⟨_, exec_frameEnd served receiving ctx count, readoutLeft_ends (f := { f with
        missingLines := f.missingLines + (s.lines - s.recv.expected)
        flags := { f.flags with
          sequence := f.flags.sequence || decide (s.recv.expected < s.lines ∨ count.toNat ≠ s.lines) } })
      phase receiver rfl⟩
  · exact ⟨_, exec_frameTimerExpiry served busy ctx due,
      readoutLeft_ends (f := { f with timedOut := true }) phase receiver rfl⟩

/-! ## Packets (R78, R86) -/

theorem countStray_frame (s : State) : unchangedBut [.stray] s s.countStray := by
  intro p hp; cases p <;> first | rfl | exact absurd (by decide) hp

/-- A packet that the receiver does not take is counted and changes nothing else (R86). -/
theorem exec_stray {i : Instr} {s : State} (h : i = .unknownPacket ∨ (s.recv.state = .idle ∧ ((∃ n, i = .frameStart n) ∨
      (∃ n p k, i = .line n p k) ∨ ∃ n, i = .frameEnd n)) ∨
    (s.recv.state = .expecting ∧ ((∃ n p k, i = .line n p k) ∨ ∃ n, i = .frameEnd n))) : exec i s = .next s.countStray := by
  have run {number : Byte} (state : s.recv.state = .idle) : execFrameStart number s = .next s.countStray := by
    unfold execFrameStart
    rw [state]
  have line {n : Half} {p : List Half} {k : Half} (state : s.recv.state = .idle ∨ s.recv.state = .expecting) :
      execLine n p k s = .next s.countStray := by
    unfold execLine
    obtain state | state := state <;> rw [state]
  have ended {n : Half} (state : s.recv.state = .idle ∨ s.recv.state = .expecting) : execFrameEnd n s = .next s.countStray := by
    unfold execFrameEnd
    obtain state | state := state <;> rw [state]
  obtain rfl | ⟨state, ⟨n, rfl⟩ | ⟨n, p, k, rfl⟩ | ⟨n, rfl⟩⟩ | ⟨state, ⟨n, p, k, rfl⟩ | ⟨n, rfl⟩⟩ := h
  · rfl
  · exact run state
  · exact line (.inl state)
  · exact ended (.inl state)
  · exact line (.inr state)
  · exact ended (.inr state)

/-- Settles O42: Table 32 by the state of the receiver, the end of a readout as in O44. -/
theorem frameStartsAndStrayPackets : Obligations.FrameStartsAndStrayPackets := by
  unfold Obligations.FrameStartsAndStrayPackets
  refine fun s => ⟨fun i h => ⟨_, exec_stray h, rfl, countStray_frame s⟩, fun number c f state served ctx => ?_,
    fun number c f state served ctx phase ended is => ?_⟩
  · have run : exec (.frameStart number) s = .next { s.setCtx c (some { f with sensorFrame := some number }) with
        recv := { s.recv with state := .receiving } } := by
      show execFrameStart number s = _
      unfold execFrameStart
      rw [state, served]
      dsimp only
      rw [updCtx_of_ctx ctx]
      cases c <;> rfl
    refine ⟨_, run, rfl, by cases c <;> rfl, by cases c <;> rfl, ?_⟩
    intro p hp
    cases c <;> cases p <;> first | rfl | exact absurd (by decide) hp
  · subst is
    have run : exec (.frameStart number) s = .next ((s.readoutLeft c { f with flags := { f.flags with sequence := true } }
        { s.recv with state := .idle, served := none, timer := none, stray := min (s.recv.stray + 1) 65535 }).readoutEnd
          c).follow := by
      show execFrameStart number s = _
      unfold execFrameStart
      rw [state, served]
      dsimp only
      rw [updCtx_of_ctx ctx]
      cases c <;> rfl
    have left : ReceiverLeft s { s.recv with
      state := .idle, served := none, timer := none, stray := min (s.recv.stray + 1) 65535 } := ⟨rfl, rfl, rfl, rfl⟩
    exact ⟨_, run, readoutEnded_stray, readoutEnd_ended (f := { f with flags := { f.flags with sequence := true } }) phase left,
      readoutEnd_besideGap phase, readoutEnd_lifts phase left⟩

end Sys2Proof.Machine
end

section
/-! PROOFS of O49: the end of a transaction of the Control Engine, and to whom the port passes on. -/

set_option Elab.async false

namespace Sys2Proof.Machine

open Sys2Proof

/-! ## The arbiter with no record in hand -/

/-- The pieces that the Sensor Link and the contexts share. -/
def linkParts : List Part := [.power, .replay] ++ gapSets

section NoJob

variable {s : State}

theorem readyForRecord_none (job : s.engine.job = none) : s.readyForRecord = s := by
  unfold State.readyForRecord
  rw [job]

theorem becomeReady_noJob (job : s.engine.job = none) : unchangedBut linkParts s s.becomeReady := by
  have woken : unchangedBut [.power] s { s with sensor := { s.sensor with power := .ready } } := by
    intro p hp; cases p <;> first | rfl | exact absurd (by decide) hp
  have evaluated := gapEvaluateAll_frame { s with sensor := { s.sensor with power := .ready } }
  unfold State.becomeReady
  rw [readyForRecord_none ((congrArg Engine.job (evaluated.get .engine)).trans job)]
  refine (woken.widen _).trans ((evaluated.widen _).trans ?_)
  intro p hp; cases p <;> first | rfl | exact absurd (by decide) hp

theorem grantReplay_noJob (job : s.engine.job = none) : unchangedBut linkParts s s.grantReplay := by
  unfold State.grantReplay State.replayNext
  have waits : unchangedBut [.waits] s { s with sensor := { s.sensor with replayWaits := false } } := by
    intro p hp; cases p <;> first | rfl | exact absurd (by decide) hp
  split
  · refine (waits.widen _).trans ?_
    split
    · intro p hp; cases p <;> first | rfl | exact absurd (by decide) hp
    · have freed := freePort_frame { s with sensor := { s.sensor with replayWaits := false } }
      exact (freed.widen _).trans (becomeReady_noJob job)
  · exact .refl _ _

/-- With no record in hand the port's requests touch the contexts and the Sensor Link alone. -/
theorem follow_noJob (job : s.engine.job = none) : unchangedBut (.interval :: linkParts) s s.follow := by
  have noRecord : s.noFlushRecord := by simp [State.noFlushRecord, job]
  have replay := grantReplay_noJob job
  unfold State.follow State.arbitrate
  rw [checkFlushRecord_other s noRecord]
  exact (replay.widen _).trans (((grantFlush_noRecord (noFlushRecord_of_unchanged noRecord replay)).widen _).trans
    (((grantEngine_frame _).widen _).trans ((tidyInterval_frame _).widen _)))

end NoJob

/-! ## The free port passed on (R110) -/

/-- Settings staged and the port asked for already: a FLUSH_STAGED in hand changes nothing (R120). -/
theorem checkFlushRecord_asked {s : State} (staged : s.sensor.staged ≠ []) (waits : s.sensor.flushWaits = true) :
    s.checkFlushRecord = s := by
  unfold State.checkFlushRecord
  split
  · rw [if_neg fun h => staged h.1]
    split
    · rw [← waits]
    · rfl
  · rfl

/-- What a free port does for the first that waits for it (R110, R113, R116, R125). -/
theorem portPassedOn_followed {others : List Part} {v : SensorLink} {s x : State} (link : x.sensor = v) (free : v.port = none)
    (frame : unchangedBut (others ++ [Part.port]) s x) (record : s.noFlushRecord → x.noFlushRecord)
    (engine : v.engineWaits = true → x.engine = s.engine)
    (apart : ([Part.time, .contexts, .interval].all fun p => !others.contains p) = true := by decide) :
    PortPassedOn others v s x.follow := by
  simp only [List.all_cons, List.all_nil, Bool.and_true, Bool.and_eq_true, Bool.not_eq_true'] at apart
  obtain ⟨time, contexts, interval⟩ := apart
  have within : ∀ {p : Part}, others.contains p = false → p ≠ Part.port → (others ++ [Part.port]).contains p = false := fun h k => by
    rw [List.contains_append, h]
    simpa using k
  have now : x.now = s.now := frame.get .time (within time (by decide))
  have ctx : ∀ c, x.ctx c = s.ctx c := fun c => ctx_of_contexts frame c (within contexts (by decide))
  have timed {y : State} {qs : List Part} (changed : unchangedBut qs x y) (port : Part.port ∈ qs) (kept : qs.contains .interval = false) :
      timedBut (others ++ qs) s y.tidyInterval := by
    refine timedBut_tidyInterval ((frame.mono fun p hp => ?_).trans (changed.mono fun p hp => List.mem_append_right _ hp)) ?_
    · obtain hp | hp := List.mem_append.mp hp
      · exact List.mem_append_left _ hp
      · exact List.mem_append_right _ (List.mem_singleton.mp hp ▸ port)
    · rw [List.contains_append, interval, kept]
      rfl
  subst link
  refine ⟨fun p waits power noRecord stale => ?_, fun e rest replay waits power flush b0 b1 staged => ?_,
    fun j op replay flush waits job work => ?_⟩
  · unfold State.follow
    rw [checkFlushRecord_other x (record noRecord), arbitrate_replay free waits stale]
    refine ⟨by rw [tidyInterval_sensor]; simp only [begunNow, now], timed (fun q hq => ?_) (by decide) (by decide)⟩
    cases q <;> first | rfl | exact absurd (by decide) hq
  · have may : x.flushCondition = true := (flushCondition_iff x).mpr
      ⟨(blocksFlush_congr (ctx _)).trans b0, (blocksFlush_congr (ctx _)).trans b1, power, flush⟩
    unfold State.follow
    rw [checkFlushRecord_asked (by rw [staged]; exact List.cons_ne_nil _ _) waits, arbitrate_flush free replay waits may staged]
    refine ⟨by rw [tidyInterval_sensor]; simp only [begunNow, now], timed (fun q hq => ?_) (by decide) (by decide)⟩
    cases q <;> first | rfl | exact absurd (by decide) hq
  · have job := (congrArg Engine.job (engine waits)).trans job
    unfold State.follow
    rw [checkFlushRecord_other x (noFlushRecord_of_work job (by rintro h; rw [h] at work; cases work)),
      arbitrate_engine free replay flush waits job work]
    refine ⟨by rw [tidyInterval_sensor]; simp only [begunNow, now], timed (fun q hq => ?_) (by decide) (by decide)⟩
    cases q <;> first | rfl | exact absurd (by decide) hq

/-! ## The end of a transaction (R109) -/

theorem exec_transaction {s : State} {tx : Transaction} {ok : Bool} (port : s.sensor.port = some tx)
    (due : ok = false → isDue s.now (some tx.timer) = true) (value : Half) :
    exec (if ok then .sensorAck value else .ackTimeout) s = .next (s.transactionEnds ok (if ok then value else 0)) := by
  cases ok
  · show Host.Outcome.next (if isDue s.now (s.sensor.port.map Transaction.timer) then _ else _) = _
    rw [port]
    exact congrArg Host.Outcome.next (if_pos (due rfl))
  · rfl

/-- The mirror behind a transaction: a successful WRITE is recorded (R112, R113). -/
def mirrorAfter (ok : Bool) (op : PortOp) (mirror : List (Nat × MirrorEntry)) : List (Nat × MirrorEntry) :=
  match ok, op with
  | true, .write a v => mirrorSet a.toNat { stale := false, value := v } mirror
  | _, _ => mirror

/-- The port is free and the mirror recorded. -/
def State.portFreed (mirror : List (Nat × MirrorEntry)) (s : State) : State :=
  { s with sensor := { s.sensor with port := none, mirror := mirror } }

theorem portFreed_frame (mirror : List (Nat × MirrorEntry)) (s : State) :
    unchangedBut [.port, .mirror] s (s.portFreed mirror) := by
  intro p hp; cases p <;> first | rfl | exact absurd (by decide) hp

/-- What a record whose transaction has ended reports (R113). -/
def transactionResult (tag : Word) (op : PortOp) (ok : Bool) (value : Half) : ControlResult :=
  match op with
  | .write _ _ => { kind := 0x05, tag := tag, status := if ok then .done else .portTimeout }
  | .read _ => { kind := 0x06, tag := tag, status := if ok then .done else .portTimeout, read := if ok then value else 0 }

section Ends

variable {u : Setup} {s : State} {tx : Transaction} {j : Job} {ok : Bool} {value : Half}

theorem transactionEnds_engine (port : s.sensor.port = some tx) (owner : tx.owner = .engine) (job : s.engine.job = some j) :
    s.transactionEnds ok (if ok then value else 0) = ((s.portFreed (mirrorAfter ok tx.op s.sensor.mirror)).finishRecord
      (transactionResult j.tag tx.op ok value)).follow := by
  unfold State.transactionEnds
  rw [port]
  dsimp only
  rw [owner]
  dsimp only
  refine congrArg State.follow ?_
  unfold State.recordTransacted
  dsimp only
  rw [show s.freePort.engine.job = some j from job]
  dsimp only
  cases tx.op <;> cases ok <;> rfl

theorem transactionEnds_cleared (port : s.sensor.port = some tx) (owner : tx.owner = .cleared) :
    s.transactionEnds ok (if ok then value else 0) = (s.portFreed (mirrorAfter ok tx.op s.sensor.mirror)).follow := by
  unfold State.transactionEnds
  rw [port]
  dsimp only
  rw [owner]
  dsimp only
  refine congrArg State.follow ?_
  unfold State.clearedTransacted
  cases tx.op <;> cases ok <;> rfl

/-- The record of the engine's transaction completes (R113, R138). -/
theorem transactionDone (held : s.ring.setup = some u) (mirror : List (Nat × MirrorEntry)) (r : ControlResult) :
    let x := (s.portFreed mirror).finishRecord r
    Posts u [] [.control r] s x ∧ x.engine = engineNext s ∧ unchangedBut ([.port, .mirror, .engine] ++ postParts) s x ∧
      x.sensor = { s.sensor with port := none, mirror := mirror } := by
  have freed := portFreed_frame mirror s
  have finished := finishRecord_frame_idle r (s.portFreed mirror)
  refine ⟨(finishRecord_posts (s := s.portFreed mirror) held r).preceded freed, ?_, (freed.widen _).trans (finished.widen _),
    sensor_of_unchanged finished⟩
  rw [finishRecord_engine]
  unfold engineNext State.ringWaiting
  simp only [decide_eq_true_eq]
  rfl

end Ends

/-- Settles O49: `transactionDone` for a record in hand, the free port by `portPassedOn_followed`. -/
theorem engineTransactionsEnd : Obligations.EngineTransactionsEnd := by
  unfold Obligations.EngineTransactionsEnd
  refine ⟨fun u j tx value ok s held port owner job due mirror is => ?_, fun tx value ok s port owner due mirror is => ?_,
    fun s => ⟨fun port value => ?_, fun tx port due => ?_⟩⟩
  · rw [exec_transaction port due, transactionEnds_engine port owner job]
    have is : mirror = mirrorAfter ok tx.op s.sensor.mirror := is
    rw [← is]
    obtain ⟨posts, engine, frame, link⟩ := transactionDone held mirror (transactionResult j.tag tx.op ok value)
    generalize (s.portFreed mirror).finishRecord (transactionResult j.tag tx.op ok value) = x at *
    have done : x.engine.job = none := by
      rw [engine, engineNext]
      split <;> rfl
    have noRecord : x.noFlushRecord := by simp [State.noFlushRecord, done]
    have followed := follow_noJob done
    refine ⟨_, rfl, (followed.get .mirror).trans (by rw [link]), posts.followed followed, (followed.get .engine).trans engine,
      fun replay flush => ?_, fun idle => portPassedOn_followed link rfl (frame.mono (by decide)) (fun _ => noRecord)
        fun h => absurd (idle.symm.trans h) (by decide)⟩
    have replay : x.sensor.replayWaits = false := by rw [link]; exact replay
    have flush : x.sensor.flushWaits = false := by rw [link]; exact flush
    have granted : ∃ waits, x.arbitrate = { x with sensor := { x.sensor with engineWaits := waits } } := by
      unfold State.arbitrate
      rw [grantReplay_of_not_waiting replay, grantFlush_of_not_waiting flush]
      unfold State.grantEngine
      split
      · dsimp only
        rw [done]
        exact ⟨false, rfl⟩
      · exact ⟨x.sensor.engineWaits, rfl⟩
    obtain ⟨waits, granted⟩ := granted
    unfold State.follow
    rw [checkFlushRecord_other x noRecord, granted]
    refine ⟨by rw [tidyInterval_sensor, link], timedBut_tidyInterval ((frame.widen _).trans ?_)⟩
    intro p hp; cases p <;> first | rfl | exact absurd (by decide) hp
  · rw [exec_transaction port due, transactionEnds_cleared port owner]
    have is : mirror = mirrorAfter ok tx.op s.sensor.mirror := is
    rw [← is]
    have freed := portFreed_frame mirror s
    refine ⟨_, rfl, ((follow_frame _).get .mirror).trans rfl, fun quiet record => ?_,
      portPassedOn_followed rfl rfl (freed.mono (by decide)) (fun h => noFlushRecord_of_unchanged h freed) fun _ => rfl⟩
    rw [follow_quiet (s.portFreed mirror) ⟨.inr quiet, noFlushRecord_of_unchanged record freed⟩]
    exact ⟨by rw [tidyInterval_sensor]; rfl, timedBut_tidyInterval freed⟩
  · have none_ (ok : Bool) (w : Half) : s.transactionEnds ok w = s := by
      unfold State.transactionEnds
      rw [port]
    refine ⟨congrArg Host.Outcome.next (none_ true value), ?_⟩
    show Host.Outcome.next (if isDue s.now (s.sensor.port.map Transaction.timer) then _ else _) = _
    rw [port]
    rfl
  · show Host.Outcome.next (if isDue s.now (s.sensor.port.map Transaction.timer) then _ else _) = _
    rw [port]
    exact congrArg Host.Outcome.next (if_neg (by simp [due]))

end Sys2Proof.Machine
end

section
/-! PROOFS of O31 and O33: the removal of power, by OFF and by CYCLE. -/

set_option Elab.async false

namespace Sys2Proof.Machine

open Sys2Proof

/-! ## The power-off notice (R51) -/

/-- A context has taken the power-off notice, by its state (Table 19). -/
def State.noticed (c : CtxId) (s : State) : State :=
  { s.setCtx c ((s.ctx c).map (Frame.afterPowerOff s.now)) with
    seq := { (s.setCtx c ((s.ctx c).map (Frame.afterPowerOff s.now))).seq with
      expose := s.seq.expose && !s.inPhase c .exposing
      strobe := s.seq.strobe && !(s.inPhase c .exposing || s.inPhase c .lead) }
    sched := { s.sched with endCause := s.sched.endCause <|> powerOffCause (s.ctx c) } }

section Notice

variable {c : CtxId} {f : Frame} {s : State}

theorem orElse_none_right (a : Option EndCause) : (a <|> none) = a := by cases a <;> rfl

/-- A context that the notice does not touch. -/
theorem noticed_untouched (frame : (s.ctx c).map (Frame.afterPowerOff s.now) = s.ctx c) (cause : powerOffCause (s.ctx c) = none)
    (exposing : s.inPhase c .exposing = false) (lead : s.inPhase c .lead = false) : s.noticed c = s := by
  unfold State.noticed
  rw [frame, cause, exposing, lead, orElse_none_right, setCtx_self rfl]
  simp

theorem powerOffAt_eq (c : CtxId) (s : State) : s.powerOffAt c = s.noticed c := by
  unfold State.powerOffAt
  cases ctx : s.ctx c with
  | none =>
    exact (noticed_untouched (by rw [ctx]; rfl) (by rw [ctx]; rfl) (by simp [State.inPhase, ctx]) (by simp [State.inPhase, ctx])).symm
  | some f =>
    have phases := inPhase_of_ctx ctx
    dsimp only
    cases phase : f.phase
    case reserving =>
      exact (noticed_untouched (by rw [ctx]; simp [Frame.afterPowerOff, phase]) (by rw [ctx]; simp [powerOffCause, phase])
        (by simp [phases, phase]) (by simp [phases, phase])).symm
    case closing =>
      exact (noticed_untouched (by rw [ctx]; simp [Frame.afterPowerOff, phase]) (by rw [ctx]; simp [powerOffCause, phase])
        (by simp [phases, phase]) (by simp [phases, phase])).symm
    case lead =>
      dsimp only
      rw [closeFrame_eq (s := { s with seq := { s.seq with strobe := false } }) ctx]
      unfold State.noticed
      rw [ctx, phases, phases]
      simp only [Option.map_some, Frame.afterPowerOff, powerOffCause, phase]
      cases c <;> simp [State.setCtx]
    case exposing =>
      dsimp only
      rw [updCtx_of_ctx (s := s.releaseLines) ctx, closeFrame_eq (setCtx_ctx_same ..), setCtx_setCtx, recordActual_eq]
      unfold State.noticed
      rw [ctx, phases, phases]
      have outcome : (f.exposedUntil s.now).outcome = f.outcome := rfl
      simp only [Option.map_some, Frame.afterPowerOff, powerOffCause, phase, outcome]
      cases c <;> simp [State.setCtx, State.releaseLines]
    all_goals
      dsimp only
      rw [closeFrame_eq ctx]
      unfold State.noticed
      rw [ctx, phases, phases]
      simp only [Option.map_some, Frame.afterPowerOff, powerOffCause, phase]
      cases c <;> simp [State.setCtx]

theorem noticed_ctx (c : CtxId) (s : State) : (s.noticed c).ctx c = (s.ctx c).map (Frame.afterPowerOff s.now) := by
  cases c <;> rfl

theorem noticed_ctx_other (c : CtxId) (s : State) : (s.noticed c).ctx (other c) = s.ctx (other c) := by
  cases c <;> rfl

theorem noticed_frame (c : CtxId) (s : State) : unchangedBut [.contexts, .stop, .lines] s (s.noticed c) :=
  powerOffAt_eq c s ▸ powerOffAt_frame c s

/-- The notice at both contexts, at this one first (R51). -/
theorem powerOffFrom_ctx (c : CtxId) (s : State) (d : CtxId) :
    (s.powerOffFrom c).ctx d = (s.ctx d).map (Frame.afterPowerOff s.now) := by
  have now : (s.noticed c).now = s.now := (noticed_frame c s).get .time
  unfold State.powerOffFrom
  rw [powerOffAt_eq, powerOffAt_eq]
  obtain rfl | rfl : d = c ∨ d = other c := by cases c <;> cases d <;> simp [other]
  · have kept := noticed_ctx_other (other d) (s.noticed d)
    rw [other_other] at kept
    rw [kept, noticed_ctx]
  · rw [noticed_ctx, noticed_ctx_other, now]

theorem powerOffFrom_lines (c : CtxId) (s : State) :
    (s.powerOffFrom c).seq.expose = (s.seq.expose && !(s.inPhase .c0 .exposing || s.inPhase .c1 .exposing)) ∧
      (s.powerOffFrom c).seq.strobe = (s.seq.strobe && !(s.inPhase .c0 .exposing || s.inPhase .c1 .exposing) &&
        !(s.inPhase .c0 .lead || s.inPhase .c1 .lead)) := by
  have kept : ∀ p, (s.noticed c).inPhase (other c) p = s.inPhase (other c) p := fun p => by
    simp only [State.inPhase, noticed_ctx_other]
  have expose : (s.noticed c).seq.expose = (s.seq.expose && !s.inPhase c .exposing) := rfl
  have strobe : (s.noticed c).seq.strobe = (s.seq.strobe && !(s.inPhase c .exposing || s.inPhase c .lead)) := rfl
  unfold State.powerOffFrom
  rw [powerOffAt_eq, powerOffAt_eq]
  constructor
  · show ((s.noticed c).seq.expose && !(s.noticed c).inPhase (other c) .exposing) = _
    rw [expose, kept]
    cases c <;> simp [other, Bool.and_assoc, Bool.and_comm, Bool.and_left_comm]
  · show ((s.noticed c).seq.strobe && !((s.noticed c).inPhase (other c) .exposing || (s.noticed c).inPhase (other c) .lead)) = _
    rw [strobe, kept, kept]
    cases c <;> simp [other, Bool.and_assoc, Bool.and_comm, Bool.and_left_comm]

theorem powerOffFrom_cause (c : CtxId) (s : State) : (s.powerOffFrom c).sched.endCause =
    (s.sched.endCause <|> powerOffCause (s.ctx c) <|> powerOffCause (s.ctx (other c))) := by
  unfold State.powerOffFrom
  rw [powerOffAt_eq, powerOffAt_eq]
  show ((s.sched.endCause <|> powerOffCause (s.ctx c)) <|> powerOffCause ((s.noticed c).ctx (other c))) = _
  rw [noticed_ctx_other]
  cases s.sched.endCause <;> rfl

end Notice

/-! ## The removal of power (R126) -/

section Removal

variable {u : Setup} {s t v : State} {ps : List Part}

theorem receiverOff_recv (s : State) : s.receiverOff.recv =
    if s.recv.state = .idle then s.recv else { s.recv with state := .idle, served := none, timer := none } := by
  unfold State.receiverOff
  cases state : s.recv.state <;> simp

/-- The Sensor Link once power has been removed (R126 steps 2 to 5, R128). -/
theorem removePower_sensor (s : State) : s.removePower.sensor =
    { s.cutSensor with
      settle := none, replayPos := 0, replayed := 0, failed := 0, mirror := mirrorStale s.sensor.mirror, enableOut := false
      power := .off } := by
  have link : s.powerOffNotice.sensor = s.sensor := sensor_of_unchanged (powerOffNotice_frame s)
  have cut : s.powerOffNotice.cutSensor = s.cutSensor := by
    unfold State.cutSensor cutEntry State.cutGeneration State.leftGeneration
    rw [link]
  exact (cutPower_sensor s.powerOffNotice).trans (by rw [cut, link])

theorem cutPower_posts (held : s.ring.setup = some u) : Posts u [] (cutCompletions s) s s.cutPower := by
  have stopped : unchangedBut [.power] s { s with sensor := { s.sensor with settle := none } } := by
    intro p hp; cases p <;> first | rfl | exact absurd (by decide) hp
  have posts := foldHandOver_posts u (cutEntry s).toList (fun e => .control (stagedResult e .sensorOff none))
    { s with sensor := { s.sensor with settle := none } } held
  refine Posts.preceded stopped ?_
  unfold Posts State.handed at posts ⊢
  unfold State.cutPower
  rw [cutPort_eq, cutCompletions_eq, List.foldl_map]
  exact posts

theorem removePower_posts (held : s.ring.setup = some u) : Posts u [] (cutCompletions s) s s.removePower := by
  have notice := powerOffNotice_frame s
  have same : cutCompletions s.powerOffNotice = cutCompletions s := by
    unfold cutCompletions cutEntry
    rw [sensor_of_unchanged notice]
  exact same ▸ (cutPower_posts ((notice.get .setup).trans held)).preceded notice

theorem removePower_removed (s : State) : PowerRemoved s s.removePower := by
  obtain ⟨c, notice⟩ := powerOffNotice_eq s
  have cut : unchangedBut (.mirror :: .power :: .replay :: cutPortParts) s.powerOffNotice s.removePower := cutPower_frame _
  have turned : unchangedBut [.receiver, .freeCount] (s.powerOffFrom c) s.powerOffNotice := by
    rw [notice]
    refine .trans (t := { s.powerOffFrom c with free := s.free + 1 }) ?_ ((receiverOff_frame _).widen _)
    intro p hp; cases p <;> first | rfl | exact absurd (by decide) hp
  have after : unchangedBut (.receiver :: .freeCount :: .mirror :: .power :: .replay :: cutPortParts) (s.powerOffFrom c) s.removePower :=
    (turned.widen _).trans (cut.widen _)
  have first := powerOffAt_frame c s
  have from_ : unchangedBut [.contexts, .stop, .lines] s (s.powerOffFrom c) := first.trans (powerOffAt_frame _ _)
  have lines := after.get .lines
  have stop := after.get .stop
  have mode : (s.powerOffFrom c).sched.stopMode = s.sched.stopMode := by
    unfold State.powerOffFrom
    rw [powerOffAt_eq, powerOffAt_eq]
    rfl
  have received : (s.powerOffFrom c).recv = s.recv := recv_of_unchanged from_
  obtain ⟨expose, strobe⟩ := powerOffFrom_lines c s
  simp only [Part.same, Prod.mk.injEq] at lines stop
  have recv : s.removePower.recv = s.powerOffNotice.recv := recv_of_unchanged cut
  have link := removePower_sensor s
  refine ⟨fun d => (ctx_of_contexts after d).trans (powerOffFrom_ctx c s d), fun h => ?_, fun h => ?_, fun h => ?_, ?_, ?_, ?_,
    by rw [link]; rfl, by rw [link]; rfl, by rw [link]; rfl, by rw [link]; rfl, by rw [link]; rfl⟩
  · rw [lines.1, lines.2, expose, strobe, h]
    simp
  · rw [lines.2, strobe, h]
    simp
  · rw [lines.1, lines.2, expose, strobe, h]
    exact ⟨by simp, fun lead => by rw [lead]; simp⟩
  · rw [stop.2, powerOffFrom_cause]
    cases c
    · exact .inl rfl
    · exact .inr rfl
  · exact stop.1.trans mode
  · rw [recv, notice, receiverOff_recv]
    dsimp only
    rw [received]

theorem PowerRemoved.preceded (frame : unchangedBut [.ctlRing, .engine, .issued] s t) (h : PowerRemoved t v) : PowerRemoved s v := by
  have stop := frame.get .stop
  simp only [Part.same, Prod.mk.injEq] at stop
  have link := sensor_of_unchanged frame
  unfold PowerRemoved cutEntry State.cutGeneration State.leftGeneration State.inPhase State.ctx at h ⊢
  rwa [seq_of_unchanged frame, recv_of_unchanged frame, stop.1, stop.2, link, show t.now = s.now from frame.get .time] at h

/-- The pieces that the removal of power sets. -/
def removalSets : List Part := [.contexts, .lines, .stop, .receiver, .stray, .staged, .port, .flush, .generation]

theorem PowerRemoved.followed (h : PowerRemoved s t) (frame : unchangedBut ps t v)
    (replay : v.sensor.replayWaits = t.sensor.replayWaits)
    (apart : (removalSets.all fun p => !ps.contains p) = true := by decide) : PowerRemoved s v := by
  simp only [removalSets, List.all_cons, List.all_nil, Bool.and_true, Bool.and_eq_true, Bool.not_eq_true'] at apart
  obtain ⟨contexts, lines, stop, receiver, stray, staged, port, flush, generation⟩ := apart
  have lines := frame.get .lines lines
  have stop := frame.get .stop stop
  simp only [Part.same, Prod.mk.injEq] at lines stop
  obtain ⟨ctx, exposing, lead, kept, cause, mode, recv, list, free, waits, flushing, gen⟩ := h
  unfold PowerRemoved
  rw [lines.1, lines.2, stop.1, stop.2, recv_of_unchanged frame receiver stray, replay,
    show v.sensor.staged = t.sensor.staged from frame.get .staged staged, show v.sensor.port = t.sensor.port from frame.get .port port,
    show v.sensor.flush = t.sensor.flush from frame.get .flush flush,
    show v.sensor.generation = t.sensor.generation from frame.get .generation generation]
  exact ⟨fun c => (ctx_of_contexts frame c contexts).trans (ctx c), exposing, lead, kept, cause, mode, recv, list, free, waits,
    flushing, gen⟩

/-- After the notice no context is in GAP (Table 19). -/
theorem afterPowerOff_not_gap (now : Stamp) (f : Frame) : (f.afterPowerOff now).phase ≠ .gap := by
  unfold Frame.afterPowerOff
  split
  · exact nofun
  · split
    · exact nofun
    · split
      · exact nofun
      · assumption

theorem PowerRemoved.not_gap (h : PowerRemoved s t) (c : CtxId) : t.inPhase c .gap = false := by
  unfold State.inPhase
  rw [h.1 c]
  cases s.ctx c with
  | none => rfl
  | some f => simpa using afterPowerOff_not_gap s.now f

/-- With the sensor OFF, no record in hand and no context in GAP the requests of the port are forgotten (R110, R116). -/
theorem arbitrate_off (power : s.sensor.power = .off) (replay : s.sensor.replayWaits = false) (alone : s.linkAlone) :
    ∃ flush engine, s.arbitrate = { s with sensor := { s.sensor with flushWaits := flush, engineWaits := engine } } := by
  obtain ⟨job, gap0, gap1⟩ := alone
  have flushed : ∃ flush, s.grantFlush = { s with sensor := { s.sensor with flushWaits := flush } } := by
    unfold State.grantFlush
    split
    · refine ⟨false, ?_⟩
      dsimp only
      rw [if_neg (by simp [State.flushCondition, power]),
        gapAdvance_of_not_gap (s := { s with sensor := { s.sensor with flushWaits := false } }) (c := .c0) gap0,
        gapAdvance_of_not_gap (s := { s with sensor := { s.sensor with flushWaits := false } }) (c := .c1) gap1]
      exact checkFlushRecord_alone job
    · exact ⟨s.sensor.flushWaits, rfl⟩
  unfold State.arbitrate
  rw [grantReplay_of_not_waiting replay]
  obtain ⟨flush, flushed⟩ := flushed
  rw [flushed]
  unfold State.grantEngine
  split
  · refine ⟨flush, false, ?_⟩
    dsimp only
    rw [job]
  · exact ⟨flush, s.sensor.engineWaits, rfl⟩

theorem setRequests_frame (s : State) (flush engine : Bool) : unchangedBut [.waits] s
    { s with sensor := { s.sensor with flushWaits := flush, engineWaits := engine } } := by
  intro p hp; cases p <;> first | rfl | exact absurd (by decide) hp

/-- Power is removed for a record that was read (R126). -/
theorem recordTaken_removePower (reading : s.readingControl u) :
    unchangedBut ([.ctlRing, .engine, .issued] ++ powerOffParts) s (s.recordTaken u).removePower ∧
      PowerRemoved s (s.recordTaken u).removePower ∧
      (s.recordTaken u).removePower.sensor = { s.cutSensor with
        settle := none, replayPos := 0, replayed := 0, failed := 0, mirror := mirrorStale s.sensor.mirror, enableOut := false
        power := .off } ∧
      RecordTaken u s (s.recordTaken u).removePower ∧
      Posts u [recordProgress u s] (cutCompletions s) s (s.recordTaken u).removePower := by
  have taken := recordTaken_frame u s
  have removal := removePower_frame (s.recordTaken u)
  exact ⟨(taken.widen _).trans (removal.widen _), (removePower_removed (s.recordTaken u)).preceded taken,
    removePower_sensor (s.recordTaken u), RecordTaken.followed (t := s.recordTaken u) ⟨rfl, rfl⟩ removal,
    (recordTaken_posts u s).append (removePower_posts (s := s.recordTaken u) reading.2) rfl rfl rfl⟩

end Removal

/-- Settles O31: the removal (`removePower_removed`), and the requests of the port forgotten behind it. -/
theorem sensorPowerOff : Obligations.SensorPowerOff := by
  unfold Obligations.SensorPowerOff
  intro u tag replay s reading
  have run : exec (.sensorPowerOff tag replay) s = .next (if s.sensor.power = .off then
      (s.recordTaken u).finishRecord { kind := 0x07, tag := tag, status := .already }
      else ((s.recordTaken u).removePower.finishRecord { kind := 0x07, tag := tag, status := .done }).follow) :=
    congrArg Host.Outcome.next (takeRecord_recordTaken reading _)
  refine ⟨_, run, fun power => ?_, fun power => ?_⟩
  · rw [if_pos power]
    exact ⟨recordFinished_done reading _, recordFinished_frame u _ s⟩
  rw [if_neg power]
  obtain ⟨removal, removed, link, taken, posts⟩ := recordTaken_removePower reading
  generalize (s.recordTaken u).removePower = m at *
  have finished := finishRecord_frame_idle { kind := 0x07, tag := tag, status := .done } m
  have done := RecordDone.of_finish reading taken posts removal { kind := 0x07, tag := tag, status := .done }
  have job : (m.finishRecord { kind := 0x07, tag := tag, status := .done }).engine.job = none := by
    rw [finishRecord_engine]
    split <;> rfl
  have still := sensor_of_unchanged finished
  have removed := removed.followed finished (by rw [still])
  rw [link] at still
  generalize m.finishRecord { kind := 0x07, tag := tag, status := .done } = x at *
  obtain ⟨flush, engine, settled⟩ := arbitrate_off (s := x) (by rw [still]) (by rw [still]; rfl)
    ⟨job, removed.not_gap _, removed.not_gap _⟩
  have follow : x.follow = State.tidyInterval { x with
      sensor := { x.sensor with flushWaits := flush, engineWaits := engine } } := by
    unfold State.follow
    rw [checkFlushRecord_alone job, settled]
  have requests := setRequests_frame x flush engine
  have behind : unchangedBut [.waits, .interval] x x.follow := by
    rw [follow]
    exact (requests.widen [.waits, .interval]).trans ((tidyInterval_frame _).widen _)
  have timed : timedBut (powerRemovedParts ++ recordParts) s x.follow := by
    rw [follow]
    exact timedBut_tidyInterval ((removal.widen _).trans ((finished.widen _).trans (requests.widen _)))
  refine ⟨done.followed behind, removed.followed behind (by rw [follow, tidyInterval_sensor]), ?_⟩
  have kept : x.follow.sensor = { x.sensor with flushWaits := flush, engineWaits := engine } := by
    rw [follow, tidyInterval_sensor]
  rw [kept, still]
  exact ⟨rfl, rfl, rfl, rfl, rfl, rfl, rfl, timed⟩

/-- Settles O33: the steps of OFF where the sensor is not OFF (`removePower_removed`), then those of ON (`poweringUp_held`). -/
theorem sensorPowerCycle : Obligations.SensorPowerCycle := by
  unfold Obligations.SensorPowerCycle
  intro u tag replay s reading form
  have run : exec (.sensorPowerCycle tag replay) s = .next ((((if s.sensor.power = .off then s.recordTaken u
      else (s.recordTaken u).removePower).applyPower replay).hold { tag := tag, work := .power true replay false }).follow) :=
    congrArg Host.Outcome.next (takeRecord_recordTaken reading _)
  refine ⟨_, run, ?_⟩
  by_cases power : s.sensor.power = .off
  · rw [if_pos power]
    obtain ⟨waits, -⟩ := powerForm_quiet form (by rw [power]; decide)
    obtain ⟨flush, engine, run⟩ := poweringUp_held (w := s.recordTaken u)
      (j := { tag := tag, work := .power true replay false }) replay waits rfl nofun
    rw [run]
    obtain ⟨taken, issued, held⟩ := RecordHeld.tidyInterval ((recordHeld_held u
      { tag := tag, work := .power true replay false } s).of_sensor (v := { ((s.recordTaken u).applyPower replay).hold
        { tag := tag, work := .power true replay false } with
        sensor := { ((s.recordTaken u).applyPower replay).sensor with flushWaits := flush, engineWaits := engine } }) rfl rfl rfl)
    refine ⟨taken, held, fun _ => ⟨issued, ?_, timedBut_tidyInterval ?_⟩, fun h => absurd power h⟩
    · unfold PoweringUp
      rw [tidyInterval_sensor]
      exact ⟨rfl, rfl, rfl, rfl, rfl, rfl, rfl, rfl⟩
    · intro p hp
      cases p <;> first | rfl | exact absurd (by decide) hp
  · rw [if_neg power]
    obtain ⟨removal, removed, link, taken, posts⟩ := recordTaken_removePower reading
    have engineKept : (s.recordTaken u).removePower.engine = (s.recordTaken u).engine := (removePower_frame _).get .engine
    generalize (s.recordTaken u).removePower = m at *
    obtain ⟨flush, engine, run⟩ := poweringUp_held (w := m) (j := { tag := tag, work := .power true replay false }) replay
      (by rw [link]; rfl) rfl nofun
    rw [run]
    have upped : unchangedBut [.power, .replay, .mirror, .engine, .waits] m
        { (m.applyPower replay).hold { tag := tag, work := .power true replay false } with
          sensor := { (m.applyPower replay).sensor with flushWaits := flush, engineWaits := engine } } := by
      intro p hp; cases p <;> first | rfl | exact absurd (by decide) hp
    have behind := (upped.widen [.power, .replay, .mirror, .engine, .waits, .interval]).trans ((tidyInterval_frame _).widen _)
    refine ⟨taken.followed behind, ?_, fun h => absurd h power, fun _ => ⟨posts.followed behind,
      removed.followed behind (by rw [tidyInterval_sensor]; rfl), ?_, timedBut_tidyInterval ((removal.widen _).trans (upped.widen _))⟩⟩
    · rw [tidyInterval_engine]
      exact congrArg (fun e : Engine => { e with job := some { tag := tag, work := .power true replay false } }) engineKept
    · unfold PoweringUp
      rw [tidyInterval_sensor]
      have now : m.now = s.now := removal.get .time
      have setup : m.ring.setup = s.ring.setup := removal.get .setup
      refine ⟨rfl, rfl, ?_, rfl, rfl, rfl, rfl, ?_⟩
      · show some (Timer.start m.now (millis ((m.ring.setup.map Setup.settleTime).getD 0))) = _
        rw [now, setup]
        rfl
      · show (if replay then m.sensor.mirror else mirrorForget m.sensor.mirror) = _
        rw [link]
        rfl

end Sys2Proof.Machine
end

section
/-! A context in GAP that has evaluated with nothing staged, and the port granted to the Control Engine behind it (R31, R33, R113). -/

set_option Elab.async false

namespace Sys2Proof.Machine

open Sys2Proof

/-! ## Evaluated once, a context stays where it is -/

section Settled

variable {r : CaptureRequest} {c : CtxId} {f : Frame} {s t : State}

theorem StartMet.not_gap (h : StartMet r c f s t) : t.inPhase c .gap = false := by
  unfold StartMet at h
  split at h
  · obtain ⟨ctx, -⟩ := h
    rw [inPhase_of_ctx ctx]
    rfl
  · obtain ⟨ctx, -⟩ := h
    rw [inPhase_of_ctx ctx]
    rfl

theorem WaitStartEntered.not_gap {gen : Word} (h : WaitStartEntered r c f gen s t) : t.inPhase c .gap = false := by
  obtain ⟨-, -, software, latched, waits⟩ := h
  by_cases source : r.source = .software
  · exact (software source).1.not_gap
  by_cases latch : s.seq.latch = true
  · exact (latched source latch).1.not_gap
  obtain ⟨ctx, -⟩ := waits source (Bool.not_eq_true _ ▸ latch)
  rw [inPhase_of_ctx ctx]
  split <;> rfl

/-- Evaluation leaves this context where it is (R31). -/
def GapSettled (c : CtxId) (s : State) : Prop :=
  s.request = none ∨ s.inPhase c .gap = false ∨
    s.sensor.power ≠ .off ∧ (s.sensor.power = .ready → ¬ (s.sensor.staged = [] ∧ s.sensor.flush = none))

theorem gapAdvance_of_settled (h : GapSettled c s) : s.gapAdvance c = s := by
  obtain request | gap | ⟨off, held⟩ := h
  · unfold State.gapAdvance
    rw [request]
  · exact gapAdvance_of_not_gap gap
  · exact gapAdvance_held off held c

/-- A context that evaluation moves closes with the power off, or enters WAIT_START (R31). -/
theorem gapAdvance_moves (h : ¬ GapSettled c s) : ∃ f r, s.ctx c = some f ∧
    (s.gapAdvance c = s.closeFrame c .sensorOff ∨ s.gapAdvance c = s.enterWaitStart r c) := by
  unfold GapSettled at h
  rw [not_or, not_or] at h
  obtain ⟨request, gap, held⟩ := h
  obtain ⟨r, request⟩ := Option.ne_none_iff_exists'.mp request
  rw [Bool.not_eq_false] at gap
  cases ctx : s.ctx c with
  | none => simp [State.inPhase, ctx] at gap
  | some f =>
    rw [inPhase_of_ctx ctx, decide_eq_true_iff] at gap
    refine ⟨f, r, rfl, ?_⟩
    by_cases off : s.sensor.power = .off
    · exact .inl (gapAdvance_off ctx gap request off)
    · obtain ⟨power, staged, flush⟩ : s.sensor.power = .ready ∧ s.sensor.staged = [] ∧ s.sensor.flush = none := by
        by_contra no
        exact held ⟨off, fun power both => no ⟨power, both⟩⟩
      exact .inr (gapAdvance_enters ctx gap request power staged flush)

theorem gapAdvance_ctx_other (c : CtxId) (s : State) : (s.gapAdvance c).ctx (other c) = s.ctx (other c) := by
  by_cases settled : GapSettled c s
  · rw [gapAdvance_of_settled settled]
  · obtain ⟨f, r, ctx, closes | enters⟩ := gapAdvance_moves settled
    · rw [closes, closeFrame_eq ctx]
      cases c <;> rfl
    · rw [enters]
      exact (enterWaitStart_entered ctx r).2

theorem gapAdvance_settles (c : CtxId) (s : State) : GapSettled c (s.gapAdvance c) := by
  by_cases settled : GapSettled c s
  · rwa [gapAdvance_of_settled settled]
  · obtain ⟨f, r, ctx, closes | enters⟩ := gapAdvance_moves settled
    · obtain ⟨closed, -⟩ := closeFrame_closed ctx .sensorOff
      exact .inr (.inl (by rw [closes, inPhase_of_ctx closed]; rfl))
    · exact .inr (.inl (enters ▸ (enterWaitStart_entered ctx r).1.not_gap))

theorem GapSettled.other (h : GapSettled c s) : GapSettled c (s.gapAdvance (other c)) := by
  have sensor : (s.gapAdvance (Machine.other c)).sensor = s.sensor := sensor_of_unchanged (gapAdvance_frame _ s)
  have ctx := gapAdvance_ctx_other (Machine.other c) s
  rw [show Machine.other (Machine.other c) = c by cases c <;> rfl] at ctx
  obtain request | gap | held := h
  · rw [gapAdvance_of_settled (.inl request)]
    exact .inl request
  · refine .inr (.inl ?_)
    rwa [State.inPhase, ctx]
  · exact .inr (.inr (sensor ▸ held))

end Settled

/-! ## Evaluation with nothing staged -/

section Unstaged

variable {s : State}

theorem gapEvaluate_unstaged (staged : s.sensor.staged = []) (c : CtxId) : s.gapEvaluate c = s.gapAdvance c := by
  have kept : (s.gapAdvance c).sensor.staged = [] := ((gapAdvance_frame c s).get .staged).trans staged
  unfold State.gapEvaluate
  exact if_neg fun ⟨_, _, h, _⟩ => h kept

theorem gapEvaluateAll_unstaged (staged : s.sensor.staged = []) :
    s.gapEvaluateAll = (s.gapAdvance .c0).gapAdvance .c1 := by
  unfold State.gapEvaluateAll
  rw [gapEvaluate_unstaged staged, gapEvaluate_unstaged (((gapAdvance_frame .c0 s).get .staged).trans staged)]

theorem gapEvaluateAll_unstaged_frame (staged : s.sensor.staged = []) :
    unchangedBut (.stop :: waitStartParts) s s.gapEvaluateAll := by
  rw [gapEvaluateAll_unstaged staged]
  exact (gapAdvance_frame .c0 _).trans (gapAdvance_frame .c1 _)

theorem gapEvaluateAll_settled (staged : s.sensor.staged = []) (c : CtxId) : GapSettled c s.gapEvaluateAll := by
  rw [gapEvaluateAll_unstaged staged]
  cases c
  · exact GapSettled.other (c := .c0) (gapAdvance_settles .c0 s)
  · exact gapAdvance_settles .c1 _

/-- The port granted to the Control Engine behind an evaluation with nothing staged; a flush that asks for it leaves its request
(R113, R116). -/
theorem gapEvaluateAll_engine {j : Job} {op : PortOp} (staged : s.sensor.staged = []) (free : s.sensor.port = none)
    (replay : s.sensor.replayWaits = false) (waits : s.sensor.engineWaits = true) (job : s.engine.job = some j)
    (work : j.work.op = some op) :
    s.gapEvaluateAll.follow = State.tidyInterval { s.gapEvaluateAll with
      sensor := { s.sensor with flushWaits := false, engineWaits := false, port := some (begunNow .engine op s) } } := by
  have frame := gapEvaluateAll_unstaged_frame staged
  have settled : ∀ c, GapSettled c s.gapEvaluateAll := gapEvaluateAll_settled staged
  have sensor : s.gapEvaluateAll.sensor = s.sensor := sensor_of_unchanged frame
  have now : s.gapEvaluateAll.now = s.now := frame.get .time
  have job : s.gapEvaluateAll.engine.job = some j := (congrArg Engine.job (frame.get .engine)).trans job
  generalize s.gapEvaluateAll = w at *
  have noRecord := noFlushRecord_of_work job (by rintro h; rw [h] at work; cases work)
  have granted : w.arbitrate = State.arbitrate { w with sensor := { w.sensor with flushWaits := false } } := by
    by_cases flush : w.sensor.flushWaits = true
    · rw [arbitrate_cancels (by rw [sensor]; exact free) (by rw [sensor]; exact replay) flush (fun _ => by rw [sensor]; exact staged)
        (fun d => gapAdvance_of_settled (settled d)) noRecord]
      unfold State.arbitrate
      rw [grantReplay_of_not_waiting (by exact sensor ▸ replay), grantFlush_of_not_waiting rfl]
    · rw [Bool.not_eq_true] at flush
      rw [← flush]
  unfold State.follow
  rw [checkFlushRecord_other w noRecord, granted, arbitrate_engine (s := { w with sensor := { w.sensor with flushWaits := false } })
    (by exact sensor ▸ free) (by exact sensor ▸ replay) rfl (by exact sensor ▸ waits) job work]
  simp only [begunNow, now, sensor]

end Unstaged

end Sys2Proof.Machine
end

section
/-! PROOFS of O50: the end of a flush entry's WRITE, and what the end of the flush sets going. -/

set_option Elab.async false

namespace Sys2Proof.Machine

open Sys2Proof

/-! ## The end of a flush (R118) -/

/-- The Sensor Link behind the end of a flush with this generation (R118). -/
def State.flushOver (g : Word) (s : State) : State :=
  { s with sensor := { s.sensor with flush := none, generation := g, port := none } }

theorem flushOver_frame (g : Word) (s : State) : unchangedBut [.flush, .generation, .port] s (s.flushOver g) := by
  intro p hp; cases p <;> first | rfl | exact absurd (by decide) hp

theorem endFlush_eq {s : State} {fl : Flush} (flush : s.sensor.flush = some fl) (taken : fl.taken ≠ 0) :
    s.endFlush = (s.flushOver fl.generation).gapEvaluateAll := by
  refine congrArg State.gapEvaluateAll ?_
  unfold State.closeFlush
  rw [flush]
  dsimp only
  rw [if_neg taken]
  rfl

/-- The Settings Mirror as a transaction leaves it, and the rest of the staged list. -/
def State.recorded (mirror : List (Nat × MirrorEntry)) (staged : List Staged) (s : State) : State :=
  { s with sensor := { s.sensor with mirror := mirror, staged := staged } }

theorem recorded_frame (mirror : List (Nat × MirrorEntry)) (staged : List Staged) (s : State) :
    unchangedBut [.mirror, .staged] s (s.recorded mirror staged) := by
  intro p hp; cases p <;> first | rfl | exact absurd (by decide) hp

theorem recorded_frame_mirror (mirror : List (Nat × MirrorEntry)) (s : State) :
    unchangedBut [.mirror] s (s.recorded mirror s.sensor.staged) := by
  intro p hp; cases p <;> first | rfl | exact absurd (by decide) hp

section Ends

variable {s : State} {tx : Transaction} {a v : Half} {ok : Bool} {fl : Flush}

theorem transactionEnds_flush (port : s.sensor.port = some tx) (owner : tx.owner = .flush) (op : tx.op = .write a v) (w : Half) :
    s.transactionEnds ok w = (s.entryWritten ok a v).follow := by
  unfold State.transactionEnds
  rw [port]
  dsimp only
  rw [owner, op]

theorem recordWrite_recorded (ok : Bool) (a v : Half) (s : State) : (if ok then s.recordWrite a v else s) =
    s.recorded (mirrorAfter ok (.write a v) s.sensor.mirror) s.sensor.staged := by
  cases ok <;> rfl

/-- The completion of a flush entry whose WRITE has ended (R117, R140). -/
def entryDone (e : Staged) (ok : Bool) (g : Word) : Completion :=
  .control { kind := 0x05, tag := e.tag, status := if ok then .applied else .portTimeout, generation := if ok then some g else none }

theorem entryWritten_front {e : Staged} {rest : List Staged} (staged : s.sensor.staged = e :: rest) (front : e.inProgress = true)
    (flush : s.sensor.flush = some fl) : s.entryWritten ok a v =
      if rest = [] then ((s.recorded (mirrorAfter ok (.write a v) s.sensor.mirror) rest).handOver (entryDone e ok fl.generation)).endFlush
      else ((s.recorded (mirrorAfter ok (.write a v) s.sensor.mirror) rest).handOver (entryDone e ok fl.generation)).writeFront := by
  unfold State.entryWritten
  rw [recordWrite_recorded]
  dsimp only
  rw [show (s.recorded (mirrorAfter ok (.write a v) s.sensor.mirror) s.sensor.staged).sensor.staged = e :: rest from staged]
  dsimp only
  rw [if_pos front, show (s.recorded (mirrorAfter ok (.write a v) s.sensor.mirror) s.sensor.staged).sensor.flush.map Flush.generation =
    some fl.generation from congrArg (Option.map Flush.generation) flush]
  rfl

/-- With no entry IN_PROGRESS the flush ends (R130). -/
theorem entryWritten_left (left : s.sensor.staged.head?.any Staged.inProgress = false) : s.entryWritten ok a v =
    (s.recorded (mirrorAfter ok (.write a v) s.sensor.mirror) s.sensor.staged).endFlush := by
  unfold State.entryWritten
  rw [recordWrite_recorded]
  cases staged : s.sensor.staged with
  | nil =>
    simp only [State.recorded]
  | cons e rest =>
    have off : e.inProgress = false := by simpa [staged] using left
    simp [State.recorded, off]

end Ends

/-! ## Behind the last entry -/

/-- A FLUSH_STAGED in hand completes at the end of the flush (R118, R120). -/
theorem checkFlushRecord_ended {u : Setup} {w : State} (held : w.ring.setup = some u) (staged : w.sensor.staged = [])
    (flush : w.sensor.flush = none) :
    Posts u [] (w.flushRecord.toList.map flushDone) w w.checkFlushRecord ∧
      w.checkFlushRecord.engine = (if w.flushRecord.isSome then engineNext w else w.engine) ∧
      unchangedBut (.engine :: postParts) w w.checkFlushRecord := by
  cases record : w.flushRecord with
  | none =>
    rw [checkFlushRecord_other w (noFlushRecord_of_none record)]
    exact ⟨by simp [Posts, runWrites], rfl, .refl _ _⟩
  | some tag =>
    rw [checkFlushRecord_done (flushRecord_eq_some record) staged flush]
    refine ⟨finishRecord_posts held _, ?_, finishRecord_frame_idle _ w⟩
    rw [finishRecord_engine]
    unfold engineNext State.ringWaiting
    simp only [decide_eq_true_eq]
    rfl

/-- The evaluation of GAP with nothing staged sets no more than this. -/
theorem GapTaken.followed_unstaged {r : CaptureRequest} {c : CtxId} {f : Frame} {l : SensorLink} {s t v : State} {ps : List Part}
    (h : GapTaken r c f l s t) (unstaged : l.staged = []) (frame : unchangedBut ps t v)
    (apart : ([Part.contexts, .stop, .lines, .latch, .missed, .queue].all fun p => !ps.contains p) = true := by decide) :
    GapTaken r c f l s v := by
  simp only [List.all_cons, List.all_nil, Bool.and_true, Bool.and_eq_true, Bool.not_eq_true'] at apart
  obtain ⟨contexts, stop, lines, latch, missed, queue⟩ := apart
  have ctx := ctx_of_contexts frame c contexts
  unfold GapTaken at h ⊢
  rw [unstaged] at h ⊢
  split at h
  · exact h.followed frame contexts stop
  · exact ctx.trans h
  · exact ctx.trans h
  · exact ctx.trans h
  · exact h.followed frame contexts lines latch missed queue
  · contradiction

section LastEntry

variable {u : Setup} {s x : State} {ps : List Part}

/-- A context in GAP evaluates at the end of a flush that leaves nothing staged (R31, R33). -/
theorem unstagedGap {r : CaptureRequest} {c : CtxId} {f : Frame} {t : State} {qs : List Part} (ctx : s.ctx c = some f)
    (gap : f.phase = .gap) (beside : s.inPhase (other c) .gap = false) (request : s.request = some r)
    (frame : unchangedBut ps s x) (staged : x.sensor.staged = []) (behind : unchangedBut qs x.gapEvaluateAll t)
    (before : ((Part.contexts :: gapReads).all fun p => !ps.contains p) = true := by decide)
    (after : ([Part.contexts, .stop, .lines, .latch, .missed, .queue].all fun p => !qs.contains p) = true := by decide) :
    GapTaken r c f x.sensor s t ∧ t.ctx (other c) = s.ctx (other c) ∧ unchangedBut (gapParts c x.sensor s) x x.gapEvaluateAll := by
  rw [List.all_cons, Bool.and_eq_true, Bool.not_eq_true'] at before
  obtain ⟨contexts, reads⟩ := before
  have same : ∀ d, x.ctx d = s.ctx d := fun d => ctx_of_contexts frame d contexts
  have queue : ps.contains .queue = false := by
    simp only [gapReads, List.all_cons, List.all_nil, Bool.and_true, Bool.and_eq_true, Bool.not_eq_true'] at reads
    obtain ⟨-, -, -, -, -, queue⟩ := reads
    exact queue
  have at_ := (same c).trans ctx
  have request : x.request = some r := (congrArg (fun q => q.head?.bind Entry.request) (frame.get .queue queue)).trans request
  have beside : x.inPhase (other c) .gap = false := by rwa [State.inPhase, same]
  rw [gapEvaluateAll_of_one at_ gap request beside] at behind ⊢
  obtain ⟨taken, kept, evaluated, -⟩ := gapEvaluate_takes at_ gap request fun ⟨_, some_, _⟩ => some_ staged
  rw [gapParts_congr (s := s) x.sensor (same (other c))] at evaluated
  have apart : qs.contains .contexts = false := by
    rw [List.all_cons, Bool.and_eq_true, Bool.not_eq_true'] at after
    exact after.1
  exact ⟨(taken.followed_unstaged staged behind after).preceded frame (same _) reads,
    (ctx_of_contexts behind _ apart).trans (kept.trans (same _)), evaluated⟩

/-- The end of a flush that leaves nothing staged, with a WRITE or READ that waits for the port (R113, R118). -/
theorem unstaged_engine {j : Job} {op : PortOp} (frame : unchangedBut ps s x) (staged : x.sensor.staged = [])
    (free : x.sensor.port = none) (replay : x.sensor.replayWaits = false) (waits : x.sensor.engineWaits = true)
    (job : s.engine.job = some j) (work : j.work.op = some op)
    (apart : ([Part.time, .engine].all fun p => !ps.contains p) = true := by decide) :
    x.gapEvaluateAll.follow.sensor =
        { x.sensor with flushWaits := false, engineWaits := false, port := some (begunNow .engine op s) } ∧
      ∃ y, x.gapEvaluateAll.follow = y.tidyInterval ∧ unchangedBut [.port, .waits] x.gapEvaluateAll y := by
  simp only [List.all_cons, List.all_nil, Bool.and_true, Bool.and_eq_true, Bool.not_eq_true'] at apart
  obtain ⟨time, engine⟩ := apart
  have now : x.now = s.now := frame.get .time time
  rw [gapEvaluateAll_engine staged free replay waits ((congrArg Engine.job (frame.get .engine engine)).trans job) work]
  have sensor : x.gapEvaluateAll.sensor = x.sensor := sensor_of_unchanged (gapEvaluateAll_unstaged_frame staged)
  refine ⟨by rw [tidyInterval_sensor]; simp only [begunNow, now], _, rfl, ?_⟩
  rw [← sensor]
  intro p hp; cases p <;> first | rfl | exact absurd (by decide) hp

/-- The end of a flush that leaves nothing staged, with none that waits for the port (R118, R120). -/
theorem unstaged_quiet (held : s.ring.setup = some u) (frame : unchangedBut ps s x) (staged : x.sensor.staged = [])
    (flush : x.sensor.flush = none) (quiet : x.noneWaits)
    (apart : ([Part.setup, .engine, .partState, .ctlRing, .tails].all fun p => !ps.contains p) = true := by decide) :
    ∃ y, x.gapEvaluateAll.follow = y.tidyInterval ∧ unchangedBut (.engine :: postParts) x.gapEvaluateAll y ∧
      Posts u [] (s.flushRecord.toList.map flushDone) x.gapEvaluateAll y ∧ y.sensor = x.sensor ∧
      y.engine = (if s.flushRecord.isSome then engineNext s else s.engine) := by
  simp only [List.all_cons, List.all_nil, Bool.and_true, Bool.and_eq_true, Bool.not_eq_true'] at apart
  obtain ⟨setup, engine, part, ring, tails⟩ := apart
  have evaluated := gapEvaluateAll_unstaged_frame staged
  have sensor : x.gapEvaluateAll.sensor = x.sensor := sensor_of_unchanged evaluated
  have engine : x.gapEvaluateAll.engine = s.engine := (evaluated.get .engine).trans (frame.get .engine engine)
  have part : x.gapEvaluateAll.link.part = s.link.part := (evaluated.get .partState).trans (frame.get .partState part)
  have ring : x.gapEvaluateAll.ring.ctlHead = s.ring.ctlHead :=
    congrArg Prod.fst ((evaluated.get .ctlRing).trans (frame.get .ctlRing ring))
  have tail : x.gapEvaluateAll.ring.ctlTail = s.ring.ctlTail :=
    congrArg Prod.fst ((evaluated.get .tails).trans (frame.get .tails tails))
  obtain ⟨posts, next, finished⟩ := checkFlushRecord_ended (u := u) (w := x.gapEvaluateAll)
    (((evaluated.get .setup).trans (frame.get .setup setup)).trans held) (by rw [sensor]; exact staged) (by rw [sensor]; exact flush)
  have still : x.gapEvaluateAll.checkFlushRecord.noneWaits := by
    unfold State.noneWaits
    rwa [sensor_of_unchanged finished, sensor]
  refine ⟨x.gapEvaluateAll.checkFlushRecord, ?_, finished, ?_, (sensor_of_unchanged finished).trans sensor, ?_⟩
  · unfold State.follow
    rw [arbitrate_none (.inr still)]
  · unfold State.flushRecord at posts ⊢
    rwa [engine] at posts
  · rw [next]
    unfold State.flushRecord engineNext
    rw [engine, part, ring, tail]

end LastEntry

end Sys2Proof.Machine
end

section
/-! PROOFS of O50: the cases of the end of a flush entry's WRITE. -/

set_option Elab.async false

namespace Sys2Proof.Machine

open Sys2Proof

/-- While a flush with entries holds the port, only the interval timer can be stopped (R110, R120). -/
theorem follow_flushing {s : State} (port : s.sensor.port ≠ none) (flush : s.sensor.flush ≠ none) (staged : s.sensor.staged ≠ []) :
    s.follow = s.tidyInterval := by
  have kept : s.checkFlushRecord = s := by
    cases record : s.flushRecord with
    | none => exact checkFlushRecord_other s (noFlushRecord_of_none record)
    | some tag =>
      refine checkFlushRecord_waits (flushRecord_eq_some record) (fun h => absurd h staged) fun _ => ?_
      exact Bool.eq_false_of_not_eq_true fun h => flush ((flushCondition_iff s).mp h).2.2.2
  unfold State.follow
  rw [kept, arbitrate_busy s port]

section Entry

variable {u : Setup} {s : State}

/-- An entry has left the list and completed (R117). -/
theorem recorded_posted (held : s.ring.setup = some u) (mirror : List (Nat × MirrorEntry)) (rest : List Staged) (entry : Completion) :
    let y := (s.recorded mirror rest).handOver entry
    Posts u [] [entry] s y ∧ unchangedBut ([.mirror, .staged] ++ postParts) s y ∧
      y.sensor = { s.sensor with mirror := mirror, staged := rest } := by
  have recorded := recorded_frame mirror rest s
  have handed := handOver_frame entry (s.recorded mirror rest)
  exact ⟨(handOver_posts u entry (s.recorded mirror rest) held).preceded recorded, (recorded.widen _).trans (handed.widen _),
    sensor_of_unchanged handed⟩

/-- The next entry is written at once (R117). -/
theorem writeFront_next {y : State} {n : Staged} {more : List Staged} {fl : Flush} (staged : y.sensor.staged = n :: more)
    (flush : y.sensor.flush = some fl) (now : y.now = s.now) : y.writeFront.follow = State.tidyInterval { y with
      sensor := { y.sensor with
        staged := { n with inProgress := true } :: more, flush := some { fl with taken := fl.taken + 1 }
        port := some (begunNow .flush (.write n.address n.value) s) } } := by
  rw [writeFront_of_staged staged, flush]
  refine (follow_flushing (Option.some_ne_none _) (Option.some_ne_none _) (List.cons_ne_nil _ _)).trans ?_
  simp only [begunNow, now]
  rfl

end Entry

/-- What the end of a flush that leaves nothing staged may change, but for the contexts (R117, R118). -/
def lastEntryParts : List Part := [.port, .mirror, .staged, .flush, .generation] ++ postParts

section LastEntry

variable {u : Setup} {s x : State} {entry : Completion} {mirror : List (Nat × MirrorEntry)} {g : Word}

/-- The flush is over behind its last entry (R117, R118). -/
theorem lastEntry_over (held : s.ring.setup = some u) (mirror : List (Nat × MirrorEntry)) (entry : Completion) (g : Word) :
    let x := ((s.recorded mirror []).handOver entry).flushOver g
    Posts u [] [entry] s x ∧ unchangedBut lastEntryParts s x ∧
      x.sensor = { s.sensor with mirror := mirror, staged := [], flush := none, port := none, generation := g } := by
  obtain ⟨posts, frame, sensor⟩ := recorded_posted held mirror [] entry
  have over_ := flushOver_frame g ((s.recorded mirror []).handOver entry)
  refine ⟨posts.followed over_, (frame.widen _).trans (over_.widen _), ?_⟩
  exact congrArg (fun l : SensorLink => { l with flush := none, generation := g, port := none }) sensor

theorem lastEntry_engine {j : Job} {op : PortOp} (posts : Posts u [] [entry] s x) (frame : unchangedBut lastEntryParts s x)
    (sensor : x.sensor = { s.sensor with mirror := mirror, staged := [], flush := none, port := none, generation := g })
    (replay : s.sensor.replayWaits = false) (waits : s.sensor.engineWaits = true) (job : s.engine.job = some j)
    (work : j.work.op = some op) :
    let t := x.gapEvaluateAll.follow
    Posts u [] [entry] s t ∧
      t.sensor = { s.sensor with
        mirror := mirror, staged := [], flush := none, generation := g, flushWaits := false, engineWaits := false
        port := some (begunNow .engine op s) } ∧
      (s.inPhase .c0 .gap = false → s.inPhase .c1 .gap = false →
        timedBut ([.port, .waits, .mirror, .staged, .flush, .generation] ++ postParts) s t) ∧
      ∀ c f r, s.ctx c = some f → f.phase = .gap → s.inPhase (other c) .gap = false → s.request = some r →
        GapTaken r c f x.sensor s t ∧ t.ctx (other c) = s.ctx (other c) ∧
          timedBut (gapParts c x.sensor s ++ [.port, .waits, .mirror, .staged, .flush, .generation] ++ postParts) s t := by
  have staged : x.sensor.staged = [] := by rw [sensor]
  obtain ⟨link, y, is, behind⟩ := unstaged_engine frame staged (by rw [sensor]) (by rw [sensor]; exact replay)
    (by rw [sensor]; exact waits) job work
  have tidy := tidyInterval_frame y
  have evaluated := gapEvaluateAll_unstaged_frame staged
  have after : unchangedBut [.port, .waits, .interval] x.gapEvaluateAll y.tidyInterval := (behind.widen _).trans (tidy.widen _)
  dsimp only
  rw [sensor] at link
  refine ⟨?_, link, fun gap0 gap1 => ?_, fun c f r ctx gap beside request => ?_⟩
  · rw [is]
    exact (posts.followed evaluated).followed after
  · have phase : ∀ c, x.inPhase c .gap = s.inPhase c .gap := fun c => by simp only [State.inPhase, ctx_of_contexts frame c]
    rw [is]
    rw [gapEvaluateAll_of_not_gap ((phase _).trans gap0) ((phase _).trans gap1)] at behind
    exact timedBut_tidyInterval ((frame.widen _).trans (behind.widen _))
  · obtain ⟨taken, kept, moved⟩ := unstagedGap ctx gap beside request frame staged after
    rw [is]
    refine ⟨taken, kept, timedBut_tidyInterval ?_ ?_⟩
    · rw [List.append_assoc]
      refine (frame.mono fun p hp => List.mem_append_right _ ?_).trans ((moved.mono fun p hp => List.mem_append_left _ hp).trans
        (behind.mono fun p hp => List.mem_append_right _ ?_)) <;> revert p <;> decide
    · rw [List.append_assoc]
      exact gapParts_interval c _ s (by decide)

theorem lastEntry_quiet (held : s.ring.setup = some u) (posts : Posts u [] [entry] s x) (frame : unchangedBut lastEntryParts s x)
    (sensor : x.sensor = { s.sensor with mirror := mirror, staged := [], flush := none, port := none, generation := g })
    (quiet : s.noneWaits) :
    let t := x.gapEvaluateAll.follow
    Posts u [] (entry :: s.flushRecord.toList.map flushDone) s t ∧ t.sensor = x.sensor ∧
      t.engine = (if s.flushRecord.isSome then engineNext s else s.engine) ∧
      (s.inPhase .c0 .gap = false → s.inPhase .c1 .gap = false →
        timedBut ([.port, .mirror, .staged, .flush, .generation, .engine] ++ postParts) s t) ∧
      ∀ c f r, s.ctx c = some f → f.phase = .gap → s.inPhase (other c) .gap = false → s.request = some r →
        GapTaken r c f x.sensor s t ∧ t.ctx (other c) = s.ctx (other c) ∧
          timedBut (gapParts c x.sensor s ++ [.port, .mirror, .staged, .flush, .generation, .engine] ++ postParts) s t := by
  have staged : x.sensor.staged = [] := by rw [sensor]
  have still : x.noneWaits := by
    unfold State.noneWaits
    rwa [sensor]
  obtain ⟨y, is, behind, done, link, engine⟩ := unstaged_quiet held frame staged (by rw [sensor]) still
  have tidy := tidyInterval_frame y
  have evaluated := gapEvaluateAll_unstaged_frame staged
  have after : unchangedBut (.engine :: .interval :: postParts) x.gapEvaluateAll y.tidyInterval :=
    (behind.widen _).trans (tidy.widen _)
  have before : unchangedBut (lastEntryParts ++ (.stop :: waitStartParts)) s x.gapEvaluateAll :=
    (frame.widen _).trans (evaluated.widen _)
  dsimp only
  rw [is, tidyInterval_sensor, tidyInterval_engine]
  refine ⟨?_, link, engine, fun gap0 gap1 => ?_, fun c f r ctx gap beside request => ?_⟩
  · exact ((posts.followed evaluated).append done (before.get .time) (before.get .msi) (before.get .mask)).followed tidy
  · have phase : ∀ c, x.inPhase c .gap = s.inPhase c .gap := fun c => by simp only [State.inPhase, ctx_of_contexts frame c]
    rw [gapEvaluateAll_of_not_gap ((phase _).trans gap0) ((phase _).trans gap1)] at behind
    exact timedBut_tidyInterval ((frame.widen _).trans (behind.widen _))
  · obtain ⟨taken, kept, moved⟩ := unstagedGap ctx gap beside request frame staged after
    refine ⟨taken, kept, timedBut_tidyInterval ?_ ?_⟩
    · rw [List.append_assoc]
      refine (frame.mono fun p hp => List.mem_append_right _ ?_).trans ((moved.mono fun p hp => List.mem_append_left _ hp).trans
        (behind.mono fun p hp => List.mem_append_right _ ?_)) <;> revert p <;> decide
    · rw [List.append_assoc]
      exact gapParts_interval c _ s (by decide)

end LastEntry

/-! ## A flush that a halt left behind (R130) -/

section Left

variable {s x : State} {mirror : List (Nat × MirrorEntry)} {g : Word}

theorem flushLeft_quiet (frame : unchangedBut [.port, .mirror, .flush, .generation] s x)
    (sensor : x.sensor = { s.sensor with mirror := mirror, flush := none, port := none, generation := g })
    (quiet : s.noneWaits) (record : s.noFlushRecord) :
    let t := x.gapEvaluateAll.follow
    t.sensor.generation = g ∧
      (s.inPhase .c0 .gap = false → s.inPhase .c1 .gap = false →
        t.sensor.flush = none ∧ t.sensor.port = none ∧ timedBut [.port, .mirror, .flush, .generation] s t) ∧
      ∀ c f r, s.ctx c = some f → f.phase = .gap → s.inPhase (other c) .gap = false → s.request = some r →
        GapTaken r c f x.sensor s t ∧ t.ctx (other c) = s.ctx (other c) ∧
          timedBut (gapParts c x.sensor s ++ [.port, .mirror, .flush, .generation]) s t := by
  have same : ∀ c, x.ctx c = s.ctx c := ctx_of_contexts frame
  have phase : ∀ c, x.inPhase c .gap = s.inPhase c .gap := fun c => by simp only [State.inPhase, same]
  have noRecord := noFlushRecord_of_unchanged record frame
  have still : x.noneWaits := by
    unfold State.noneWaits
    rwa [sensor]
  dsimp only
  refine ⟨((gapEvaluateAll_follow_frame noRecord (.inr still)).get .generation).trans (by rw [sensor]), fun gap0 gap1 => ?_,
    fun c f r ctx gap beside request => ?_⟩
  · rw [gapEvaluateAll_of_not_gap ((phase _).trans gap0) ((phase _).trans gap1), follow_quiet x ⟨.inr still, noRecord⟩,
      tidyInterval_sensor, sensor]
    exact ⟨rfl, rfl, timedBut_tidyInterval frame⟩
  · have at_ := (same c).trans ctx
    have request : x.request = some r := (congrArg (fun q => q.head?.bind Entry.request) (frame.get .queue)).trans request
    have beside := (phase (other c)).trans beside
    rw [gapEvaluateAll_of_one at_ gap request beside]
    obtain ⟨taken, kept, -, timed, -⟩ := gapTaken_followed (ps := []) at_ gap request (.inr still) (.refl _ _)
      (noFlushRecord_of_unchanged noRecord (gapEvaluate_frame c x))
    rw [List.append_nil, gapParts_congr (s := s) x.sensor (same (other c))] at timed
    exact ⟨taken.preceded frame (same (other c)), kept.trans (same _), timed.preceded frame⟩

/-- The port is free behind the WRITE of a flush left behind, with the generation that it brings (R118, R130). -/
def State.leftFreed (mirror : List (Nat × MirrorEntry)) (g : Word) (s : State) : State :=
  { s with sensor := { s.sensor with port := none, mirror := mirror, generation := g } }

theorem leftFreed_frame (mirror : List (Nat × MirrorEntry)) (g : Word) (s : State) :
    unchangedBut [.port, .mirror, .generation] s (s.leftFreed mirror g) := by
  intro p hp; cases p <;> first | rfl | exact absurd (by decide) hp

theorem transactionEnds_leftFlush {tx : Transaction} {a v : Half} (port : s.sensor.port = some tx) (owner : tx.owner = .leftFlush g)
    (op : tx.op = .write a v) (ok : Bool) (w : Half) :
    s.transactionEnds ok w = (s.leftFreed (mirrorAfter ok (.write a v) s.sensor.mirror) g).follow := by
  unfold State.transactionEnds
  rw [port]
  dsimp only
  rw [owner, op]
  dsimp only
  refine congrArg State.follow ?_
  unfold State.leftFlushWritten
  rw [recordWrite_recorded]
  generalize mirrorAfter ok (.write a v) s.sensor.mirror = mirror
  have generation : (s.recorded mirror s.sensor.staged).leftGeneration = g := by
    unfold State.leftGeneration
    rw [show (s.recorded mirror s.sensor.staged).sensor.port = some tx from port, Option.map_some, owner]
  dsimp only
  rw [closeLeftFlush_eq, generation]
  rfl

end Left

/-- Settles O50: `writeFront_next` for a list that goes on, `lastEntry_engine` and `lastEntry_quiet` for its end, and
`portPassedOn_followed` for a flush that a halt left behind. -/
theorem flushWritesEnd : Obligations.FlushWritesEnd := by
  unfold Obligations.FlushWritesEnd
  refine ⟨fun u tx a v value fl ok s held port owner op flush taken due => ?_, fun tx g a v value ok s port owner op due mirror is => ?_⟩
  · rw [exec_transaction port due, transactionEnds_flush port owner op]
    have mirror : (if ok then mirrorSet a.toNat { stale := false, value := v } s.sensor.mirror else s.sensor.mirror) =
        mirrorAfter ok (.write a v) s.sensor.mirror := by cases ok <;> rfl
    rw [mirror]
    by_cases left : s.sensor.staged.head?.any Staged.inProgress = false
    · rw [entryWritten_left left,
        endFlush_eq (s := s.recorded (mirrorAfter ok (.write a v) s.sensor.mirror) s.sensor.staged) flush taken]
      have frame : unchangedBut [.port, .mirror, .flush, .generation] s
          ((s.recorded (mirrorAfter ok (.write a v) s.sensor.mirror) s.sensor.staged).flushOver fl.generation) :=
        ((recorded_frame_mirror _ s).widen _).trans ((flushOver_frame _ _).widen _)
      have sensor : ((s.recorded (mirrorAfter ok (.write a v) s.sensor.mirror) s.sensor.staged).flushOver fl.generation).sensor =
        { s.sensor with mirror := mirrorAfter ok (.write a v) s.sensor.mirror, flush := none, port := none
                        generation := fl.generation } := rfl
      generalize (s.recorded (mirrorAfter ok (.write a v) s.sensor.mirror) s.sensor.staged).flushOver fl.generation = x at *
      have recorded : x.gapEvaluateAll.follow.sensor.mirror = mirrorAfter ok (.write a v) s.sensor.mirror :=
        ((follow_frame _).get .mirror).trans (((gapEvaluateAll_frame x).get .mirror).trans (by rw [sensor]))
      refine ⟨_, rfl, recorded, fun e rest staged front => ?_, fun _ gap0 gap1 => ?_, fun _ quiet record => ?_⟩
      · simp [staged, front] at left
      · have phase : ∀ c, x.inPhase c .gap = s.inPhase c .gap := fun c => by simp only [State.inPhase, ctx_of_contexts frame c]
        rw [recorded, gapEvaluateAll_of_not_gap ((phase _).trans gap0) ((phase _).trans gap1)]
        exact portPassedOn_followed sensor rfl (frame.widen _) (fun h => noFlushRecord_of_unchanged h frame) fun _ => frame.get .engine
      · obtain ⟨generation, ungapped, gapped⟩ := flushLeft_quiet frame sensor quiet record
        refine ⟨generation, ungapped, fun c f r ctx gap beside request view viewed => ?_⟩
        obtain ⟨taken, kept, timed⟩ := gapped c f r ctx gap beside request
        rw [sensor] at taken timed
        subst viewed
        exact ⟨taken, kept, timed⟩
    · cases staged : s.sensor.staged with
      | nil => simp [staged] at left
      | cons e rest =>
        have front : e.inProgress = true := by simpa [staged] using left
        rw [entryWritten_front staged front flush]
        cases rest with
        | nil =>
          rw [if_pos rfl]
          obtain ⟨-, -, left⟩ := recorded_posted held (mirrorAfter ok (.write a v) s.sensor.mirror) [] (entryDone e ok fl.generation)
          rw [endFlush_eq (by rw [left]; exact flush) taken]
          obtain ⟨posts, frame, sensor⟩ := lastEntry_over held (mirrorAfter ok (.write a v) s.sensor.mirror)
            (entryDone e ok fl.generation) fl.generation
          generalize ((s.recorded (mirrorAfter ok (.write a v) s.sensor.mirror) []).handOver (entryDone e ok fl.generation)).flushOver
            fl.generation = x at *
          have recorded : x.gapEvaluateAll.follow.sensor.mirror = mirrorAfter ok (.write a v) s.sensor.mirror :=
            ((follow_frame _).get .mirror).trans (((gapEvaluateAll_frame x).get .mirror).trans (by rw [sensor]))
          refine ⟨_, rfl, recorded, fun e' rest list inProgress entry is => ?_, fun h => ?_, fun h => ?_⟩
          · obtain ⟨rfl, rfl⟩ := List.cons.inj list
            subst is
            refine ⟨nofun, fun _ replay waits j op job work => ?_, fun _ quiet => ?_⟩
            · obtain ⟨done, link, ungapped, gapped⟩ := lastEntry_engine posts frame sensor replay waits job work
              refine ⟨done, by rw [link], ungapped, fun c f r ctx gap beside request view viewed => ?_⟩
              obtain ⟨taken, kept, timed⟩ := gapped c f r ctx gap beside request
              rw [sensor] at taken timed
              subst viewed
              exact ⟨taken, kept, timed⟩
            · obtain ⟨done, link, engine, ungapped, gapped⟩ := lastEntry_quiet held posts frame sensor quiet
              rw [sensor] at link
              refine ⟨done, by rw [link], by rw [link], by rw [link], by rw [link], engine, ungapped,
                fun c f r ctx gap beside request view viewed => ?_⟩
              obtain ⟨taken, kept, timed⟩ := gapped c f r ctx gap beside request
              rw [sensor] at taken timed
              subst viewed
              exact ⟨taken, kept, timed⟩
          · simp [front] at h
          · simp [front] at h
        | cons n more =>
          rw [if_neg (List.cons_ne_nil _ _)]
          obtain ⟨posts, frame, sensor⟩ := recorded_posted held (mirrorAfter ok (.write a v) s.sensor.mirror) (n :: more)
            (entryDone e ok fl.generation)
          generalize (s.recorded (mirrorAfter ok (.write a v) s.sensor.mirror) (n :: more)).handOver
            (entryDone e ok fl.generation) = y at *
          rw [writeFront_next (by rw [sensor]) (by rw [sensor]; exact flush) (frame.get .time), sensor]
          have written : unchangedBut [.staged, .flush, .port] y { y with sensor := { y.sensor with
              staged := { n with inProgress := true } :: more, flush := some { fl with taken := fl.taken + 1 }
              port := some (begunNow .flush (.write n.address n.value) s) } } := by
            intro p hp; cases p <;> first | rfl | exact absurd (by decide) hp
          rw [sensor] at written
          refine ⟨_, rfl, by rw [tidyInterval_sensor], fun e' rest list inProgress entry is => ?_, fun h => ?_, fun h => ?_⟩
          · obtain ⟨rfl, rfl⟩ := List.cons.inj list
            subst is
            refine ⟨fun n' more' next => ?_, nofun, nofun⟩
            obtain ⟨rfl, rfl⟩ := List.cons.inj next
            refine ⟨(posts.followed written).followed (tidyInterval_frame _), ?_⟩
            rw [tidyInterval_sensor]
            exact ⟨rfl, rfl, rfl, rfl, timedBut_tidyInterval ((frame.widen _).trans (written.widen _))⟩
          · simp [front] at h
          · simp [front] at h
  · rw [exec_transaction port due]
    have is : mirror = mirrorAfter ok (.write a v) s.sensor.mirror := is.trans (by cases ok <;> rfl)
    rw [transactionEnds_leftFlush port owner op, ← is]
    have freed := leftFreed_frame mirror g s
    refine ⟨_, rfl, ((follow_frame _).get .mirror).trans rfl, ((follow_frame _).get .generation).trans rfl, fun quiet record => ?_,
      portPassedOn_followed rfl rfl (freed.mono (by decide)) (fun h => noFlushRecord_of_unchanged h freed) fun _ => rfl⟩
    rw [follow_quiet (s.leftFreed mirror g) ⟨.inr quiet, noFlushRecord_of_unchanged record freed⟩, tidyInterval_sensor]
    exact ⟨rfl, timedBut_tidyInterval freed⟩

end Sys2Proof.Machine
end

section
/-! READY is reached (R113, R123 to R125): what `ReadyReached` says, case by case of the record in hand. -/

set_option Elab.async false

namespace Sys2Proof.Machine

open Sys2Proof

/-! ## The record in hand -/

section Record

variable {w : State} {a b : Nat}

theorem reportReady_none (job : w.engine.job = none) : w.reportReady a b = w := by
  unfold State.reportReady
  rw [job]

theorem reportReady_flush {tag : Word} (job : w.engine.job = some { tag := tag, work := .flush }) : w.reportReady a b = w := by
  unfold State.reportReady
  rw [job]

theorem reportReady_asks {j : Job} {op : PortOp} (job : w.engine.job = some j) (work : j.work.op = some op) :
    w.reportReady a b = { w with sensor := { w.sensor with engineWaits := true } } := by
  obtain ⟨tag, work'⟩ := j
  unfold State.reportReady
  rw [job]
  cases work' <;> first | rfl | cases work

/-- What an ON or CYCLE in hand reports at READY (R124, R125). -/
def readyResult (tag : Word) (joined : Bool) (replayed failed : Nat) : ControlResult where
  kind := 0x07
  tag := tag
  status := if joined then .already else .done
  replayed := if joined then 0 else replayed
  failed := if joined then 0 else failed

theorem reportReady_power {tag : Word} {cycle replay joined : Bool}
    (job : w.engine.job = some { tag := tag, work := .power cycle replay joined }) :
    w.reportReady a b = w.finishRecord (readyResult tag joined a b) := by
  unfold State.reportReady
  rw [job]
  cases joined <;> rfl

/-- The engine behind a record that finishes, by R133 and R138. -/
theorem finishRecord_engineNext (r : ControlResult) (w : State) : (w.finishRecord r).engine = engineNext w := by
  rw [finishRecord_engine]
  unfold engineNext State.ringWaiting
  simp only [decide_eq_true_eq]
  rfl

theorem engineNext_of_unchanged {s : State} {ps : List Part} (frame : unchangedBut ps s w)
    (apart : ([Part.partState, .ctlRing, .tails].all fun p => !ps.contains p) = true := by decide) : engineNext w = engineNext s := by
  simp only [List.all_cons, List.all_nil, Bool.and_true, Bool.and_eq_true, Bool.not_eq_true'] at apart
  obtain ⟨part, ring, tails⟩ := apart
  unfold engineNext
  rw [show w.link.part = s.link.part from frame.get .partState part,
    show w.ring.ctlHead = s.ring.ctlHead from congrArg Prod.fst (frame.get .ctlRing ring),
    show w.ring.ctlTail = s.ring.ctlTail from congrArg Prod.fst (frame.get .tails tails)]

theorem engineNext_job (w : State) : (engineNext w).job = none := by
  unfold engineNext
  split <;> rfl

theorem noFlushRecord_of_job {w : State} (job : w.engine.job = none) : w.noFlushRecord := by
  unfold State.noFlushRecord
  rw [job]
  rfl

/-- A record other than a FLUSH_STAGED is none, an ON or CYCLE, or asks for the port. -/
theorem reportReady_frame (record : w.noFlushRecord) : unchangedBut (.engine :: .waits :: postParts) w (w.reportReady a b) ∧
    (w.reportReady a b).noFlushRecord ∧ (w.reportReady a b).sensor.replayWaits = w.sensor.replayWaits := by
  have asks : unchangedBut [.waits] w { w with sensor := { w.sensor with engineWaits := true } } := by
    intro p hp; cases p <;> first | rfl | exact absurd (by decide) hp
  cases job : w.engine.job with
  | none =>
    rw [reportReady_none job]
    exact ⟨.refl _ _, record, rfl⟩
  | some j =>
    obtain ⟨tag, work⟩ := j
    cases work with
    | write a v =>
      rw [reportReady_asks (op := .write a v) job rfl]
      exact ⟨asks.widen _, record, rfl⟩
    | read a =>
      rw [reportReady_asks (op := .read a) job rfl]
      exact ⟨asks.widen _, record, rfl⟩
    | power cycle replay joined =>
      rw [reportReady_power job]
      have finished := finishRecord_frame_idle (readyResult tag joined a b) w
      refine ⟨finished.widen _, noFlushRecord_of_job ?_, congrArg SensorLink.replayWaits (sensor_of_unchanged finished)⟩
      rw [finishRecord_engineNext, engineNext_job]
    | flush => simp [State.noFlushRecord, job] at record

end Record

/-! ## READY reached -/

/-- What is changed before the contexts in GAP evaluate at READY (R123 to R125). -/
def readyBefore : List Part := [.power, .replay, .port, .mirror]

section Reached

variable {u : Setup} {s w : State} {a b : Nat}

theorem ready_unflushed (record : w.noFlushRecord) (replay : w.sensor.replayWaits = false) :
    unchangedBut (.interval :: .engine :: (gapSets ++ postParts)) w (w.gapEvaluateAll.reportReady a b).follow := by
  have evaluated := gapEvaluateAll_frame w
  obtain ⟨reported, other, waits⟩ := reportReady_frame (a := a) (b := b) (noFlushRecord_of_unchanged record evaluated)
  have followed := follow_noRecord other (.inr (waits.trans ((gapEvaluateAll_replayWaits w).trans replay)))
  exact (evaluated.widen _).trans ((reported.widen _).trans (followed.widen _))

/-- With no FLUSH_STAGED in hand, what the record reports stands behind the evaluation of the contexts. -/
theorem ready_posts (record : w.noFlushRecord) (replay : w.sensor.replayWaits = false) {cs : List Completion}
    (posts : Posts u [] cs w.gapEvaluateAll (w.gapEvaluateAll.reportReady a b)) :
    Posts u [] cs w (w.gapEvaluateAll.reportReady a b).follow ∧
      (w.gapEvaluateAll.reportReady a b).follow.engine = (w.gapEvaluateAll.reportReady a b).engine := by
  have evaluated := gapEvaluateAll_frame w
  obtain ⟨-, other, waits⟩ := reportReady_frame (a := a) (b := b) (noFlushRecord_of_unchanged record evaluated)
  have followed := follow_noRecord other (.inr (waits.trans ((gapEvaluateAll_replayWaits w).trans replay)))
  exact ⟨(posts.preceded evaluated).followed followed, followed.get .engine⟩

theorem Posts.nothing (u : Setup) (s : State) : Posts u [] [] s s := by simp [Posts, runWrites]

/-- A WRITE or READ that waited for READY has its transaction where no context is in GAP (R113). -/
theorem ready_transaction {j : Job} {op : PortOp} (free : w.sensor.port = none) (quiet : w.noneWaits)
    (job : w.engine.job = some j) (work : j.work.op = some op) (gap0 : w.inPhase .c0 .gap = false) (gap1 : w.inPhase .c1 .gap = false) :
    (w.gapEvaluateAll.reportReady a b).follow =
      State.tidyInterval { w with sensor := { w.sensor with engineWaits := false, port := some (begunNow .engine op w) } } := by
  obtain ⟨replay, flush, -⟩ := quiet
  rw [gapEvaluateAll_of_not_gap gap0 gap1, reportReady_asks job work]
  unfold State.follow
  rw [checkFlushRecord_other { w with sensor := { w.sensor with engineWaits := true } }
      (noFlushRecord_of_work job (by rintro h; rw [h] at work; cases work)),
    arbitrate_engine (s := { w with sensor := { w.sensor with engineWaits := true } }) free replay flush rfl job work]
  rfl

/-- The record in hand at READY, with no context in GAP (R113, R124, R125). -/
theorem ready_ungapped (free : w.sensor.port = none) (quiet : w.noneWaits) (record : w.noFlushRecord)
    (gap0 : w.inPhase .c0 .gap = false) (gap1 : w.inPhase .c1 .gap = false) :
    timedBut ([.engine, .port] ++ postParts) w (w.gapEvaluateAll.reportReady a b).follow ∧
      ((∀ j, w.engine.job = some j → j.work.address = none) → (w.gapEvaluateAll.reportReady a b).follow.sensor.port = none) := by
  cases job : w.engine.job with
  | none =>
    rw [gapEvaluateAll_of_not_gap gap0 gap1, reportReady_none job, follow_quiet w ⟨.inr quiet, record⟩, tidyInterval_sensor]
    exact ⟨timedBut_tidyInterval (.refl _ _), fun _ => free⟩
  | some j =>
    cases work : j.work.op with
    | some op =>
      rw [ready_transaction free quiet job work gap0 gap1]
      refine ⟨timedBut_tidyInterval ?_, fun h => ?_⟩
      · obtain ⟨-, -, waits⟩ := quiet
        rw [← waits]
        intro p hp; cases p <;> first | rfl | exact absurd (by decide) hp
      · have none_ := h j rfl
        cases is : j.work <;> simp_all [Work.op, Work.address]
    | none =>
      obtain ⟨tag, work'⟩ := j
      cases work' with
      | write a v => cases work
      | read a => cases work
      | flush => simp [State.noFlushRecord, job] at record
      | power cycle replay joined =>
        rw [gapEvaluateAll_of_not_gap gap0 gap1, reportReady_power job]
        have finished := finishRecord_frame_idle (readyResult tag joined a b) w
        have idle : (w.finishRecord (readyResult tag joined a b)).engine.job = none := by
          rw [finishRecord_engineNext, engineNext_job]
        have still : (w.finishRecord (readyResult tag joined a b)).portQuiet :=
          ⟨quietPort_of_unchanged (.inr quiet) finished, noFlushRecord_of_job idle⟩
        rw [follow_quiet _ still, tidyInterval_sensor, sensor_of_unchanged finished]
        exact ⟨timedBut_tidyInterval (finished.widen _), fun _ => free⟩

/-- A context in GAP evaluates at READY, with no record that asks for the port (R31, R123). -/
theorem ready_gapped {c : CtxId} {f : Frame} {r : CaptureRequest} (quiet : w.noneWaits) (record : w.noFlushRecord)
    (silent : ∀ j, w.engine.job = some j → j.work.address = none) (ctx : w.ctx c = some f) (gap : f.phase = .gap)
    (beside : w.inPhase (other c) .gap = false) (request : w.request = some r) :
    let t := (w.gapEvaluateAll.reportReady a b).follow
    GapTaken r c f w.sensor w t ∧ t.ctx (other c) = w.ctx (other c) ∧
      timedBut (gapParts c w.sensor w ++ (.engine :: postParts)) w t := by
  have evaluated := gapEvaluate_frame c w
  have record := noFlushRecord_of_unchanged record evaluated
  have engine : (w.gapEvaluate c).engine = w.engine := evaluated.get .engine
  obtain ⟨-, other_, -⟩ := reportReady_frame (a := a) (b := b) record
  dsimp only
  rw [gapEvaluateAll_of_one ctx gap request beside]
  have reported : unchangedBut (.engine :: postParts) (w.gapEvaluate c) ((w.gapEvaluate c).reportReady a b) := by
    cases job : w.engine.job with
    | none =>
      rw [reportReady_none ((congrArg Engine.job engine).trans job)]
      exact .refl _ _
    | some j =>
      have silent := silent j job
      have job := (congrArg Engine.job engine).trans job
      obtain ⟨tag, work⟩ := j
      cases work with
      | write a v => cases silent
      | read a => cases silent
      | flush => simp [State.noFlushRecord, job] at record
      | power cycle replay joined =>
        rw [reportReady_power job]
        exact finishRecord_frame_idle _ _
  obtain ⟨taken, kept, -, timed, -⟩ := gapTaken_followed ctx gap request (.inr quiet) reported other_
  exact ⟨taken, kept, timed⟩

/-- A FLUSH_STAGED that waited gets its flush at READY (R116, R120). -/
theorem ready_flush {tag : Word} {e : Staged} {rest : List Staged} (free : w.sensor.port = none) (quiet : w.noneWaits)
    (power : w.sensor.power = .ready) (job : w.engine.job = some { tag := tag, work := .flush }) (staged : w.sensor.staged = e :: rest)
    (flush : w.sensor.flush = none) (b0 : w.blocksFlush .c0 = false) (b1 : w.blocksFlush .c1 = false) :
    (w.gapEvaluateAll.reportReady a b).follow = State.tidyInterval { w with
      sensor := { w.sensor with
        staged := { e with inProgress := true } :: rest, flush := some { generation := w.sensor.generation + 1, taken := 1 }
        port := some (begunNow .flush (.write e.address e.value) w) } } := by
  obtain ⟨replay, waits, -⟩ := quiet
  have read : ∀ c, w.blocksFlush c = false → w.inPhase c .readout = false := fun c h => by
    simp only [State.blocksFlush, Bool.or_eq_false_iff] at h
    exact h.2
  have evaluated : ∃ asked, w.gapEvaluateAll = { w with sensor := { w.sensor with flushWaits := asked } } := by
    unfold State.gapEvaluateAll
    rw [gapEvaluate_ready power (by rw [staged]; exact List.cons_ne_nil _ _) flush .c0 (read _ b1)]
    exact ⟨_, gapEvaluate_ready (w := { w with sensor := { w.sensor with flushWaits := w.inPhase .c0 .gap || w.sensor.flushWaits } })
      power (by rw [staged]; exact List.cons_ne_nil _ _) flush .c1 (read .c0 b0)⟩
  obtain ⟨asked, evaluated⟩ := evaluated
  have may : State.flushCondition { w with sensor := { w.sensor with flushWaits := asked } } = true :=
    (flushCondition_iff _).mpr ⟨b0, b1, power, flush⟩
  rw [evaluated, reportReady_flush (w := { w with sensor := { w.sensor with flushWaits := asked } }) job,
    follow_begins (s := { w with sensor := { w.sensor with flushWaits := asked } }) job staged may free replay, ← waits]
  rfl

end Reached

end Sys2Proof.Machine
end

section
/-! PROOFS of O2 and O51: the settle timer, the replay entry by entry, READY, and the replay that goes on after a drain. -/

set_option Elab.async false

namespace Sys2Proof.Machine

open Sys2Proof

/-! ## READY reached -/

theorem checkFlushRecord_replayWaits (w : State) : w.checkFlushRecord.sensor.replayWaits = w.sensor.replayWaits := by
  unfold State.checkFlushRecord
  split
  · split
    · exact congrArg SensorLink.replayWaits (sensor_of_unchanged (finishRecord_frame_idle _ w))
    · split <;> rfl
  · rfl

section Reached

variable {u : Setup} {s w : State} {a b : Nat}

theorem ready_flush_frame {tag : Word} (replay : w.sensor.replayWaits = false) (job : w.engine.job = some { tag := tag, work := .flush }) :
    unchangedBut (.interval :: flushParts) w (w.gapEvaluateAll.reportReady a b).follow := by
  have evaluated := gapEvaluateAll_frame w
  rw [reportReady_flush ((congrArg Engine.job (evaluated.get .engine)).trans job)]
  have checked := checkFlushRecord_frame w.gapEvaluateAll
  have granted := grantFlush_frame w.gapEvaluateAll.checkFlushRecord
  unfold State.follow State.arbitrate
  rw [grantReplay_of_not_waiting ((checkFlushRecord_replayWaits _).trans ((gapEvaluateAll_replayWaits w).trans replay))]
  exact (evaluated.widen _).trans ((checked.widen _).trans ((granted.widen _).trans
    (((grantEngine_frame _).widen _).trans ((tidyInterval_frame _).widen _))))

theorem ready_keeps_power (replay : w.sensor.replayWaits = false) :
    Part.power.same w (w.gapEvaluateAll.reportReady a b).follow ∧ Part.replay.same w (w.gapEvaluateAll.reportReady a b).follow := by
  cases record : w.flushRecord with
  | none =>
    have frame := ready_unflushed (a := a) (b := b) (noFlushRecord_of_none record) replay
    exact ⟨frame.get .power, frame.get .replay⟩
  | some tag =>
    have frame := ready_flush_frame (a := a) (b := b) replay (flushRecord_eq_some record)
    exact ⟨frame.get .power, frame.get .replay⟩

/-- READY is reached, whatever the record in hand (R113, R123 to R125). -/
theorem readyReached (held : s.ring.setup = some u) (frame : unchangedBut readyBefore s w) (power : w.sensor.power = .ready)
    (none_ : w.sensor.replayPos = 0 ∧ w.sensor.replayed = 0 ∧ w.sensor.failed = 0) (free : w.sensor.port = none)
    (quiet : w.noneWaits) : ReadyReached u a b s (w.gapEvaluateAll.reportReady a b).follow := by
  obtain ⟨kept, replay⟩ := ready_keeps_power (a := a) (b := b) quiet.1
  simp only [Part.same, Prod.mk.injEq] at kept replay
  obtain ⟨pos, done, lost⟩ := none_
  refine ⟨kept.1.trans power, replay.1.trans pos, replay.2.1.trans done, replay.2.2.trans lost, ?_⟩
  have engine : w.engine = s.engine := frame.get .engine
  have now : w.now = s.now := frame.get .time
  have same : ∀ c, w.ctx c = s.ctx c := ctx_of_contexts frame
  have phase : ∀ c p, w.inPhase c p = s.inPhase c p := fun c p => by simp only [State.inPhase, same]
  have evaluated := gapEvaluateAll_frame w
  have engine' : w.gapEvaluateAll.engine = s.engine := (evaluated.get .engine).trans engine
  have asked {j : Job} {op : PortOp} (job : s.engine.job = some j) (work : j.work.op = some op) :
      Posts u [] [] s (w.gapEvaluateAll.reportReady a b).follow ∧
        (w.gapEvaluateAll.reportReady a b).follow.engine = s.engine ∧
        (s.inPhase .c0 .gap = false → s.inPhase .c1 .gap = false →
          (w.gapEvaluateAll.reportReady a b).follow.sensor.port = some (begunNow .engine op s)) := by
    have record : w.noFlushRecord := noFlushRecord_of_work ((congrArg Engine.job engine).trans job)
      (by rintro h; rw [h] at work; cases work)
    have reported := reportReady_asks (a := a) (b := b) ((congrArg Engine.job engine').trans job) work
    have waiting : unchangedBut [.waits] w.gapEvaluateAll (w.gapEvaluateAll.reportReady a b) := by
      rw [reported]
      intro p hp; cases p <;> first | rfl | exact absurd (by decide) hp
    obtain ⟨posts, still⟩ := ready_posts (a := a) (b := b) record quiet.1 ((Posts.nothing u _).followed waiting)
    refine ⟨posts.preceded frame, still.trans ((waiting.get .engine).trans engine'), fun gap0 gap1 => ?_⟩
    rw [ready_transaction free quiet ((congrArg Engine.job engine).trans job) work ((phase _ _).trans gap0) ((phase _ _).trans gap1),
      tidyInterval_sensor]
    simp only [begunNow, now]
  cases job : s.engine.job with
  | none =>
    have reported := reportReady_none (a := a) (b := b) ((congrArg Engine.job engine').trans job)
    obtain ⟨posts, still⟩ := ready_posts (a := a) (b := b) (u := u) (cs := [])
      (noFlushRecord_of_job ((congrArg Engine.job engine).trans job)) quiet.1 (by rw [reported]; exact Posts.nothing u _)
    exact ⟨posts.preceded frame, still.trans (by rw [reported, engine'])⟩
  | some j =>
    obtain ⟨tag, work⟩ := j
    cases work with
    | write x v => exact asked (op := .write x v) job rfl
    | read x => exact asked (op := .read x) job rfl
    | power cycle flag joined =>
      have reported := reportReady_power (a := a) (b := b) ((congrArg Engine.job engine').trans job)
      have held : w.gapEvaluateAll.ring.setup = some u := ((evaluated.get .setup).trans (frame.get .setup)).trans held
      obtain ⟨posts, still⟩ := ready_posts (a := a) (b := b) (u := u)
        (noFlushRecord_of_work ((congrArg Engine.job engine).trans job) nofun) quiet.1
        (reported.symm ▸ finishRecord_posts held (readyResult tag joined a b))
      refine ⟨posts.preceded frame, still.trans ?_⟩
      rw [reported, finishRecord_engineNext, engineNext_of_unchanged evaluated, engineNext_of_unchanged frame]
    | flush =>
      intro b0 b1 flush staged
      obtain ⟨e, rest, front⟩ := List.exists_cons_of_ne_nil staged
      have begun := ready_flush (a := a) (b := b) free quiet power ((congrArg Engine.job engine).trans job)
        ((frame.get .staged).trans front) ((frame.get .flush).trans flush) ((blocksFlush_congr (same _)).trans b0)
        ((blocksFlush_congr (same _)).trans b1)
      have changed : unchangedBut [.staged, .flush, .port, .interval] w (w.gapEvaluateAll.reportReady a b).follow := by
        rw [begun]
        refine unchangedBut.trans ?_ ((tidyInterval_frame _).widen _)
        intro p hp; cases p <;> first | rfl | exact absurd (by decide) hp
      refine ⟨((Posts.nothing u w).followed changed).preceded frame, (changed.get .engine).trans engine, fun y more list => ?_⟩
      obtain ⟨rfl, rfl⟩ := List.cons.inj (front.symm.trans list)
      rw [begun, tidyInterval_sensor]
      refine ⟨rfl, ?_, ?_, ?_⟩
      · rw [show w.sensor.generation = s.sensor.generation from frame.get .generation]
      · simp only [begunNow, now]
      · unfold State.noneWaits
        rw [tidyInterval_sensor]
        exact quiet

/-- READY is reached with no context in GAP (R113, R124, R125). -/
theorem readyReached_ungapped (frame : unchangedBut readyBefore s w) (free : w.sensor.port = none) (quiet : w.noneWaits)
    (gap0 : s.inPhase .c0 .gap = false) (gap1 : s.inPhase .c1 .gap = false) (record : s.noFlushRecord) :
    timedBut ([.engine, .port] ++ postParts) w (w.gapEvaluateAll.reportReady a b).follow ∧
      ((∀ j, s.engine.job = some j → j.work.address = none) → (w.gapEvaluateAll.reportReady a b).follow.sensor.port = none) := by
  have phase : ∀ c p, w.inPhase c p = s.inPhase c p := fun c p => by simp only [State.inPhase, ctx_of_contexts frame]
  obtain ⟨timed, none_⟩ := ready_ungapped (a := a) (b := b) free quiet (noFlushRecord_of_unchanged record frame)
    ((phase _ _).trans gap0) ((phase _ _).trans gap1)
  exact ⟨timed, fun h => none_ fun j job => h j ((congrArg Engine.job (frame.get .engine)).symm.trans job)⟩

/-- READY is reached with one context in GAP, which evaluates (R31, R123). -/
theorem readyReached_gapped {c : CtxId} {f : Frame} {r : CaptureRequest} (frame : unchangedBut readyBefore s w)
    (quiet : w.noneWaits) (record : s.noFlushRecord) (silent : ∀ j, s.engine.job = some j → j.work.address = none)
    (ctx : s.ctx c = some f) (gap : f.phase = .gap) (beside : s.inPhase (other c) .gap = false) (request : s.request = some r) :
    let t := (w.gapEvaluateAll.reportReady a b).follow
    GapTaken r c f w.sensor s t ∧ t.ctx (other c) = s.ctx (other c) ∧
      timedBut (gapParts c w.sensor s ++ (.engine :: postParts)) w t := by
  have same : ∀ c, w.ctx c = s.ctx c := ctx_of_contexts frame
  have engine : w.engine = s.engine := frame.get .engine
  obtain ⟨taken, kept, timed⟩ := ready_gapped (a := a) (b := b) (c := c) quiet (noFlushRecord_of_unchanged record frame)
    (fun j job => silent j ((congrArg Engine.job engine).symm.trans job)) ((same _).trans ctx) gap
    (by rwa [State.inPhase, same]) ((congrArg (fun q => q.head?.bind Entry.request) (frame.get .queue)).trans request)
  rw [gapParts_congr (s := s) w.sensor (same (other c))] at timed
  exact ⟨taken.preceded frame (same _), kept.trans (same _), timed⟩

end Reached

end Sys2Proof.Machine
end

section
/-! PROOFS of O2 and O51: the replay's next entry and its end, and the settle timer. -/

set_option Elab.async false

namespace Sys2Proof.Machine

open Sys2Proof

/-! ## The replay's next entry (R125) -/

section Mirror

variable {a start : Nat}

/-- An entry below the replay position is none that the replay has still to write. -/
theorem nextStale_mirrorSet (below : a < start) {e : MirrorEntry} (current : e.stale = false) (m : List (Nat × MirrorEntry)) :
    nextStale start (mirrorSet a e m) = nextStale start m := by
  unfold nextStale
  induction m with
  | nil => simp [mirrorSet, current]
  | cons b rest ih =>
    obtain ⟨b, f⟩ := b
    unfold mirrorSet
    split
    · rw [List.find?_cons_of_neg (by simp [current])]
    · split
      · rename_i is
        rw [List.find?_cons_of_neg (by simp [current]), List.find?_cons_of_neg (by simp; omega)]
      · rw [List.find?_cons, List.find?_cons, ih]

theorem nextStale_mirrorErase (below : a < start) (m : List (Nat × MirrorEntry)) :
    nextStale start (mirrorErase a m) = nextStale start m := by
  unfold nextStale mirrorErase
  rw [List.find?_filter]
  refine congrArg (List.find? · m) (funext fun p => ?_)
  simp only [ne_eq, decide_not, Bool.not_eq_eq_eq_not]
  by_cases is : p.1 = a
  · simp [is, below]
  · simp [is]

end Mirror

section Next

variable {s : State} {p : Nat × MirrorEntry}

theorem replayNext_some (stale : nextStale s.sensor.replayPos s.sensor.mirror = some p) : s.replayNext = { s with
    sensor := { s.sensor with
      replayPos := p.1 + 1, port := some (begunNow .replay (.write (BitVec.ofNat 16 p.1) p.2.value) s) } } := by
  unfold State.replayNext
  rw [stale]
  rfl

theorem replayNext_none (ended : nextStale s.sensor.replayPos s.sensor.mirror = none) :
    s.replayNext = s.freePort.readyNow.gapEvaluateAll.reportReady s.sensor.replayed s.sensor.failed := by
  unfold State.replayNext
  rw [ended]
  exact becomeReady_eq s.freePort

/-- The replay writes its next entry, and the port is its own (R109, R125). -/
theorem replayNext_writes (stale : nextStale s.sensor.replayPos s.sensor.mirror = some p) (record : s.noFlushRecord) :
    s.replayNext.follow.sensor = { s.sensor with
        replayPos := p.1 + 1, port := some (begunNow .replay (.write (BitVec.ofNat 16 p.1) p.2.value) s) } ∧
      timedBut [.replay, .port] s s.replayNext.follow := by
  have written : unchangedBut [.replay, .port] s s.replayNext := by
    rw [replayNext_some stale]
    intro q hq; cases q <;> first | rfl | exact absurd (by decide) hq
  rw [follow_quiet s.replayNext ⟨.inl (by rw [replayNext_some stale]; exact Option.some_ne_none _),
    noFlushRecord_of_unchanged record written⟩, tidyInterval_sensor]
  exact ⟨by rw [replayNext_some stale], timedBut_tidyInterval written⟩

theorem readyNow_frame (s : State) : unchangedBut [.power, .replay] s s.readyNow := by
  intro p hp; cases p <;> first | rfl | exact absurd (by decide) hp

end Next

/-! ## The idle step (R53) -/

theorem replayTakenOff_iff (s : State) : s.replayStands = true ↔ ReplayTakenOff s := by
  unfold State.replayStands ReplayTakenOff
  simp only [Bool.and_eq_true, decide_eq_true_eq, Bool.not_eq_true', Option.isNone_iff_eq_none, and_assoc]

/-- Settles O2: the replay that a drain took the port from goes on (`replayNext_writes`) or reaches READY (`readyReached`). -/
theorem emptyQueueLetsTheTimebaseAdvance : Obligations.EmptyQueueLetsTheTimebaseAdvance := by
  unfold Obligations.EmptyQueueLetsTheTimebaseAdvance
  intro s empty
  have run : step s = .next s.idle := by
    unfold step
    rw [empty]
  rw [run]
  unfold State.idle
  refine ⟨fun c ready => ?_, fun ready stands => ?_, fun ready stands => ?_⟩
  · rw [ready]
  · rw [ready]
    exact congrArg Host.Outcome.next (if_neg fun h => stands ((replayTakenOff_iff s).mp h))
  · rw [ready]
    refine ⟨s.replayNext.follow, congrArg Host.Outcome.next (if_pos ((replayTakenOff_iff s).mpr stands)), fun p stale record => ?_,
      fun u ended held quiet => ?_⟩
    · obtain ⟨link, timed⟩ := replayNext_writes stale record
      exact ⟨link, timed.mono (by decide)⟩
    · have frame : unchangedBut [.port, .power, .replay] s s.freePort.readyNow :=
        ((freePort_frame s).widen _).trans ((readyNow_frame _).widen _)
      rw [replayNext_none ended]
      refine ⟨readyReached held (frame.widen _) rfl ⟨rfl, rfl, rfl⟩ rfl quiet, fun gap0 gap1 record => ?_⟩
      obtain ⟨timed, -⟩ := readyReached_ungapped (a := s.sensor.replayed) (b := s.sensor.failed) (frame.widen _) rfl quiet gap0 gap1
        record
      exact (timed.preceded frame).mono (by decide)

/-! ## The settle timer (R124) -/

section Settle

variable {s : State}

/-- The settle timer has expired: the power state is REPLAYING, and the replay asks for the port. -/
def State.replayAsked (s : State) : State :=
  { s with sensor := { s.sensor with settle := none, power := .replaying, replayWaits := true } }

/-- The settle timer has expired: the power state is READY, and the contexts and the record in hand go on. -/
def State.settledReady (s : State) : State :=
  { s with sensor := { s.sensor with settle := none, power := .ready, replayPos := 0, replayed := 0, failed := 0 } }

theorem exec_settleTimerExpiry (settling : s.sensor.power = .settling) (due : isDue s.now s.sensor.settle = true) :
    exec .settleTimerExpiry s = .next (if s.sensor.replayFlag = true ∧ (nextStale 0 s.sensor.mirror).isSome = true then
      s.replayAsked.follow else (s.settledReady.gapEvaluateAll.reportReady s.sensor.replayed s.sensor.failed).follow) := by
  show Host.Outcome.next (if s.sensor.power = .settling ∧ isDue s.now s.sensor.settle = true then _ else _) = _
  rw [if_pos ⟨settling, due⟩]
  dsimp only
  rw [becomeReady_eq]
  rfl

/-- With no replay under way the change to READY is one of the power state alone (log entry 17). -/
theorem settledReady_frame (form : s.replayForm) (settling : s.sensor.power = .settling) : unchangedBut [.power] s s.settledReady := by
  obtain ⟨none_, -⟩ := form
  obtain ⟨pos, replayed, failed⟩ := none_ (by rw [settling]; decide)
  intro p hp
  cases p
  case replay => exact (by simp only [Part.same, State.settledReady, pos, replayed, failed])
  all_goals first | rfl | exact absurd (by decide) hp

/-- The replay begins on a free port with the lowest STALE entry (R124, R125). -/
theorem replayAsked_begins {p : Nat × MirrorEntry} (pos : s.sensor.replayPos = 0) (stale : nextStale 0 s.sensor.mirror = some p)
    (free : s.sensor.port = none) (replay : s.sensor.replayWaits = false) (record : s.noFlushRecord) :
    s.replayAsked.follow = State.tidyInterval { s with
      sensor := { s.sensor with
        settle := none, power := .replaying, replayPos := p.1 + 1
        port := some (begunNow .replay (.write (BitVec.ofNat 16 p.1) p.2.value) s) } } := by
  unfold State.follow
  rw [checkFlushRecord_other s.replayAsked record, arbitrate_replay (s := s.replayAsked) (p := p) free rfl ?_]
  · rw [← replay]
    rfl
  · rw [← stale, ← pos]
    rfl

end Settle

/-! ## A WRITE of the replay (R125) -/

section Written

variable {s : State} {tx : Transaction} {a v : Half} {ok : Bool}

theorem replayCounted_counts (ok : Bool) (a v : Half) (s : State) :
    (s.replayCounted ok a v).sensor.replayed = (s.sensor.replayed + if ok then 1 else 0) ∧
      (s.replayCounted ok a v).sensor.failed = (s.sensor.failed + if ok then 0 else 1) ∧
      (s.replayCounted ok a v).noneWaits = s.noneWaits := by
  cases ok <;> exact ⟨rfl, rfl, rfl⟩

theorem transactionEnds_replay (port : s.sensor.port = some tx) (owner : tx.owner = .replay) (op : tx.op = .write a v) (w : Half) :
    s.transactionEnds ok w = (s.replayCounted ok a v).replayNext.follow := by
  unfold State.transactionEnds
  rw [port]
  dsimp only
  rw [owner, op]
  cases ok <;> rfl

/-- The entry written is below the replay position, so that the next one is as it was (R125). -/
theorem replayCounted_next (form : s.replayForm) (port : s.sensor.port = some tx) (owner : tx.owner = .replay)
    (op : tx.op = .write a v) : nextStale (s.replayCounted ok a v).sensor.replayPos (s.replayCounted ok a v).sensor.mirror =
      nextStale s.sensor.replayPos s.sensor.mirror := by
  obtain ⟨-, written⟩ := form
  have below : a.toNat < s.sensor.replayPos := by
    have below := written tx port owner
    rwa [op] at below
  cases ok
  · exact nextStale_mirrorErase below _
  · exact nextStale_mirrorSet below rfl _

theorem replayCounted_mirror (ok : Bool) (a v : Half) (s : State) :
    (s.replayCounted ok a v).replayNext.follow.sensor.mirror = (s.replayCounted ok a v).sensor.mirror :=
  ((follow_frame _).get .mirror).trans ((replayNext_frame _).get .mirror)

theorem replayCounted_mirrorAt (ok : Bool) (a v : Half) (s : State) :
    mirrorAt a.toNat (s.replayCounted ok a v).sensor.mirror = (if ok then some { stale := false, value := v } else none) ∧
      ∀ b, b ≠ a.toNat → mirrorAt b (s.replayCounted ok a v).sensor.mirror = mirrorAt b s.sensor.mirror := by
  cases ok
  · exact ⟨mirrorAt_erase_same _ _, fun b h => mirrorAt_erase_other _ _ _ h⟩
  · exact ⟨mirrorAt_set_same _ _ _, fun b h => mirrorAt_set_other _ _ _ _ h⟩

end Written

/-! ## The settle timer and the replay -/

section Behind

variable {s : State}

/-- The replay that the settle timer asks for (R124, R125). -/
theorem settled_replays {p : Nat × MirrorEntry} (stale : nextStale 0 s.sensor.mirror = some p) (pos : s.sensor.replayPos = 0)
    (waits : s.sensor.replayWaits = false) (record : s.noFlushRecord) :
    let t := s.replayAsked.follow
    t.sensor.settle = none ∧
      (s.sensor.port = none → t.sensor.power = .replaying ∧
        t.sensor.port = some (begunNow .replay (.write (BitVec.ofNat 16 p.1) p.2.value) s) ∧
        t.sensor.replayPos = p.1 + 1 ∧ timedBut [.power, .port, .replay] s t) ∧
      (s.sensor.port ≠ none → t.sensor = { s.sensor with power := .replaying, settle := none, replayWaits := true } ∧
        timedBut [.power, .waits] s t) := by
  by_cases free : s.sensor.port = none
  · dsimp only
    rw [replayAsked_begins pos stale free waits record, tidyInterval_sensor]
    refine ⟨rfl, fun _ => ⟨rfl, rfl, rfl, timedBut_tidyInterval fun q hq => ?_⟩, fun busy => absurd free busy⟩
    cases q <;> first | rfl | exact absurd (by decide) hq
  · dsimp only
    rw [follow_quiet s.replayAsked ⟨.inl free, record⟩, tidyInterval_sensor]
    refine ⟨rfl, fun h => absurd h free, fun _ => ⟨rfl, timedBut_tidyInterval fun q hq => ?_⟩⟩
    cases q <;> first | rfl | exact absurd (by decide) hq

theorem timedBut_gap {c : CtxId} {l : SensorLink} {w t : State} {ps qs rs : List Part} (frame : unchangedBut ps s w)
    (timed : timedBut (gapParts c l s ++ qs) w t) (within : ((qs ++ ps).all fun p => rs.contains p) = true := by decide)
    (interval : ps.contains .interval = false := by decide) : timedBut (gapParts c l s ++ rs) s t := by
  refine (timed.preceded frame interval).mono fun p hp => ?_
  rw [List.append_assoc] at hp
  exact (List.mem_append.mp hp).elim (List.mem_append_left _) fun tail =>
    List.mem_append_right _ (by simpa using List.all_eq_true.mp within p tail)

/-- READY behind the settle timer, with no STALE entry to replay (R124). -/
theorem settled_ready {u : Setup} (settling : s.sensor.power = .settling) (form : s.replayForm) (record : s.noFlushRecord)
    (held : s.ring.setup = some u) (free : s.sensor.port = none) (quiet : s.noneWaits) :
    let t := (s.settledReady.gapEvaluateAll.reportReady 0 0).follow
    ReadyReached u 0 0 s t ∧
      (s.inPhase .c0 .gap = false → s.inPhase .c1 .gap = false → timedBut ([.power, .engine, .port] ++ postParts) s t) ∧
      ∀ c f r, s.ctx c = some f → f.phase = .gap → s.inPhase (other c) .gap = false → s.request = some r →
        (∀ j, s.engine.job = some j → j.work.address = none) →
        GapTaken r c f s.settledReady.sensor s t ∧ t.ctx (other c) = s.ctx (other c) ∧
          timedBut (gapParts c s.settledReady.sensor s ++ ([.power, .engine] ++ postParts)) s t := by
  have frame := settledReady_frame form settling
  have within : unchangedBut readyBefore s s.settledReady := frame.widen _
  have ready : s.settledReady.sensor.power = .ready := rfl
  have none_ : s.settledReady.sensor.replayPos = 0 ∧ s.settledReady.sensor.replayed = 0 ∧ s.settledReady.sensor.failed = 0 :=
    ⟨rfl, rfl, rfl⟩
  have free : s.settledReady.sensor.port = none := free
  have quiet : s.settledReady.noneWaits := quiet
  generalize s.settledReady = w at *
  refine ⟨readyReached held within ready none_ free quiet, fun gap0 gap1 => ?_, fun c f r ctx gap beside request silent => ?_⟩
  · obtain ⟨timed, -⟩ := readyReached_ungapped (a := 0) (b := 0) within free quiet gap0 gap1 record
    exact (timed.preceded frame).mono (by decide)
  · obtain ⟨taken, beside, timed⟩ := readyReached_gapped (a := 0) (b := 0) within quiet record silent ctx gap beside request
    exact ⟨taken, beside, timedBut_gap frame timed⟩

/-- READY behind the last WRITE of the replay, `w` with the port free (R125). -/
theorem replay_ready {u : Setup} {w : State} {a b : Nat} (held : s.ring.setup = some u) (frame : unchangedBut readyBefore s w)
    (power : w.sensor.power = .ready) (none_ : w.sensor.replayPos = 0 ∧ w.sensor.replayed = 0 ∧ w.sensor.failed = 0)
    (free : w.sensor.port = none) (quiet : w.noneWaits) :
    let t := (w.gapEvaluateAll.reportReady a b).follow
    ReadyReached u a b s t ∧
      (s.inPhase .c0 .gap = false → s.inPhase .c1 .gap = false →
        (∀ j, s.engine.job = some j → j.work.address = none ∧ j.work ≠ .flush) → t.sensor.port = none) ∧
      (s.inPhase .c0 .gap = false → s.inPhase .c1 .gap = false → s.noFlushRecord →
        timedBut ([.power, .mirror, .engine, .port, .replay] ++ postParts) s t) ∧
      ∀ c f r, s.ctx c = some f → f.phase = .gap → s.inPhase (other c) .gap = false → s.request = some r →
        s.noFlushRecord → (∀ j, s.engine.job = some j → j.work.address = none) →
        GapTaken r c f w.sensor s t ∧ t.ctx (other c) = s.ctx (other c) ∧
          timedBut (gapParts c w.sensor s ++ ([.power, .mirror, .engine, .port, .replay] ++ postParts)) s t := by
  refine ⟨readyReached held frame power none_ free quiet, fun gap0 gap1 silent => ?_, fun gap0 gap1 record => ?_,
    fun c f r ctx gap beside request record silent => ?_⟩
  · have record : s.noFlushRecord := by
      cases job : s.engine.job with
      | none => exact noFlushRecord_of_job job
      | some j => exact noFlushRecord_of_work job (silent j job).2
    exact (readyReached_ungapped frame free quiet gap0 gap1 record).2 fun j job => (silent j job).1
  · obtain ⟨timed, -⟩ := readyReached_ungapped (a := a) (b := b) frame free quiet gap0 gap1 record
    exact (timed.preceded frame).mono (by decide)
  · obtain ⟨taken, beside, timed⟩ := readyReached_gapped (a := a) (b := b) frame quiet record silent ctx gap beside request
    exact ⟨taken, beside, timedBut_gap frame timed⟩

end Behind

/-- Settles O51: the replay asks for the port (`settled_replays`), goes on entry by entry (`replayNext_writes`), and READY
is reached (`settled_ready`, `replay_ready`). -/
theorem settleAndReplay : Obligations.SettleAndReplay := by
  unfold Obligations.SettleAndReplay
  refine ⟨fun s settling due power form quiet record => ?_, fun s held => ?_,
    fun s tx a v value ok port owner op power form mirrorForm address due => ?_⟩
  · obtain ⟨none_, -⟩ := id form
    obtain ⟨pos, replayed, failed⟩ := none_ (by rw [settling]; decide)
    obtain ⟨waits, -⟩ := powerForm_quiet power (by rw [settling]; decide)
    rw [exec_settleTimerExpiry settling due, replayed, failed]
    by_cases replays : s.sensor.replayFlag = true ∧ (nextStale 0 s.sensor.mirror).isSome = true
    · rw [if_pos replays]
      obtain ⟨flag, left⟩ := replays
      obtain ⟨p, stale⟩ := Option.isSome_iff_exists.mp left
      obtain ⟨settle, begins, asks⟩ := settled_replays stale pos waits record
      refine ⟨_, rfl, settle, fun q _ stale' => ?_, fun _ _ => asks, fun u ended => ?_⟩
      · obtain rfl := Option.some.inj (stale.symm.trans stale')
        exact begins
      · rw [flag, stale] at ended
        simp at ended
    · rw [if_neg replays]
      obtain ⟨kept, -⟩ := ready_keeps_power (w := s.settledReady) (a := 0) (b := 0) waits
      simp only [Part.same, Prod.mk.injEq] at kept
      obtain ⟨-, -, settle, -⟩ := kept
      refine ⟨_, rfl, settle.trans rfl, fun p flag stale _ => absurd ⟨flag, by rw [stale]; rfl⟩ replays,
        fun flag stale _ => absurd ⟨flag, Option.isSome_iff_ne_none.mpr stale⟩ replays, fun u _ held free => ?_⟩
      obtain ⟨reached, ungapped, gapped⟩ := settled_ready settling form record held free (quiet.resolve_left fun h => h free)
      refine ⟨reached, ungapped, fun c f r ctx gap beside request silent view viewed => ?_⟩
      subst viewed
      rw [List.append_assoc]
      exact gapped c f r ctx gap beside request silent
  · show Host.Outcome.next (if s.sensor.power = .settling ∧ isDue s.now s.sensor.settle = true then _ else _) = _
    rw [if_neg held]
  · rw [exec_transaction port due, transactionEnds_replay port owner op]
    have next := replayCounted_next (ok := ok) form port owner op
    have counted := replayCounted_frame ok a v s
    obtain ⟨written, others⟩ := replayCounted_mirrorAt ok a v s
    obtain ⟨replayed, failed, waits⟩ := replayCounted_counts ok a v s
    refine ⟨_, rfl, by rw [replayCounted_mirror, written], fun b h => by rw [replayCounted_mirror, others b h],
      fun p stale record => ?_, fun u ended held quiet view viewed => ?_⟩
    · obtain ⟨link, timed⟩ := replayNext_writes (next.trans stale) (noFlushRecord_of_unchanged record counted)
      rw [link]
      refine ⟨replayed, failed, rfl, ?_, (timed.preceded counted).mono (by decide)⟩
      rw [begunNow, show (s.replayCounted ok a v).now = s.now from counted.get .time]
    · have frame : unchangedBut readyBefore s (s.replayCounted ok a v).freePort.readyNow :=
        (counted.widen _).trans (((freePort_frame _).widen _).trans ((readyNow_frame _).widen _))
      rw [replayNext_none (next.trans ended), replayed, failed]
      obtain ⟨reached, silent, ungapped, gapped⟩ := replay_ready (w := (s.replayCounted ok a v).freePort.readyNow)
        (a := s.sensor.replayed + if ok then 1 else 0) (b := s.sensor.failed + if ok then 0 else 1) held frame rfl ⟨rfl, rfl, rfl⟩
        rfl (by exact waits.symm ▸ quiet)
      have link : (s.replayCounted ok a v).freePort.readyNow.sensor = { s.sensor with
          power := .ready, port := none, replayPos := 0, replayed := 0, failed := 0
          mirror := (s.replayCounted ok a v).sensor.mirror } := by cases ok <;> rfl
      refine ⟨reached, silent, ungapped, fun c f r ctx gap beside request record quiet => ?_⟩
      obtain ⟨taken, kept, timed⟩ := gapped c f r ctx gap beside request record quiet
      rw [link] at taken timed
      subst viewed
      rw [List.append_assoc]
      exact ⟨taken, kept, timed⟩

end Sys2Proof.Machine
end

section
/-! A context in RESERVING serves its assignments from the cache (R95 to R97): what it leaves, and what follows. -/

set_option Elab.async false

namespace Sys2Proof.Machine

open Sys2Proof

/-! ## The evaluation of GAP with or without a request -/

section Evaluates

variable {c : CtxId} {s : State}

/-- A context that asks for no flush goes no further than `State.gapAdvance` (R32). -/
theorem gapEvaluate_unasked (asks : ¬ (s.inPhase c .gap = true ∧ GapAsks c s)) : s.gapEvaluate c = s.gapAdvance c := by
  have sensor : (s.gapAdvance c).sensor = s.sensor := sensor_of_unchanged (gapAdvance_frame c s)
  have beside := gapAdvance_ctx_other c s
  unfold State.gapEvaluate
  refine if_neg fun ⟨gap, power, staged, flush, readout⟩ => asks ?_
  rw [sensor] at power staged flush
  rw [State.inPhase, beside] at readout
  have held : s.gapAdvance c = s := gapAdvance_held (by simp [power]) (fun _ h => staged h.1) c
  exact ⟨held ▸ gap, power, staged, flush, readout⟩

theorem gapEvaluate_ctx_other (c : CtxId) (s : State) : (s.gapEvaluate c).ctx (other c) = s.ctx (other c) := by
  unfold State.gapEvaluate
  dsimp only
  split
  · exact gapAdvance_ctx_other c s
  · exact gapAdvance_ctx_other c s

/-- The context beside one that evaluates stands, with a change elsewhere and the arbiter behind (R110). -/
theorem gapEvaluate_follow_other {e : State} {ps : List Part} (quiet : s.sensor.port ≠ none ∨ s.noneWaits)
    (frame : unchangedBut ps (s.gapEvaluate c) e) (record : e.noFlushRecord)
    (apart : ((gapSets ++ [Part.time, .power, .generation]).all fun p => !ps.contains p) = true := by decide) :
    e.follow.ctx (other c) = s.ctx (other c) := by
  have follow : e.follow = e.arbitrate.tidyInterval := by
    unfold State.follow
    rw [checkFlushRecord_other e record]
  rw [follow, tidyInterval_ctx]
  by_cases asks : s.inPhase c .gap = true ∧ GapAsks c s
  · obtain ⟨gap, asks⟩ := asks
    cases ctx : s.ctx c with
    | none => simp [State.inPhase, ctx] at gap
    | some f =>
      rw [inPhase_of_ctx ctx, decide_eq_true_iff] at gap
      rw [gapEvaluate_asks ctx gap asks] at frame
      exact (gapAsked_arbitrated ctx gap quiet asks frame record apart).2.1
  · rw [gapEvaluate_unasked asks] at frame
    rw [List.all_append, Bool.and_eq_true] at apart
    obtain ⟨sets, -⟩ := apart
    simp only [gapSets, List.all_cons, List.all_nil, Bool.and_true, Bool.and_eq_true, Bool.not_eq_true'] at sets
    obtain ⟨contexts, -, -, -, -, -, -, -, port, waits⟩ := sets
    rw [arbitrate_none (quietPort_of_unchanged (quietPort_of_unchanged quiet (gapAdvance_frame c s)) frame port waits)]
    exact (ctx_of_contexts frame _ contexts).trans (gapAdvance_ctx_other c s)

end Evaluates

/-! ## Assignments served -/

/-- The cache is left with this, and the context carries `g`. -/
def State.servedTo (cache : List CacheEntry) (c : CtxId) (g : Frame) (s : State) : State :=
  { s with bufs := { s.bufs with cache := cache } }.setCtx c (some g)

section ServedTo

variable (cache : List CacheEntry) (c : CtxId) (g : Frame) (s : State)

theorem servedTo_frame : unchangedBut [.contexts, .cache] s (s.servedTo cache c g) := by
  intro p hp; cases c <;> cases p <;> first | rfl | exact absurd (by decide) hp

@[simp] theorem servedTo_ctx : (s.servedTo cache c g).ctx c = some g := setCtx_ctx_same _ _ _

@[simp] theorem servedTo_ctx_other : (s.servedTo cache c g).ctx (other c) = s.ctx (other c) := by cases c <;> rfl

@[simp] theorem servedTo_sensor : (s.servedTo cache c g).sensor = s.sensor := by cases c <;> rfl

@[simp] theorem servedTo_cache : (s.servedTo cache c g).bufs.cache = cache := by cases c <;> rfl

@[simp] theorem servedTo_request : (s.servedTo cache c g).request = s.request := by cases c <;> rfl

end ServedTo

/-- A context that carries frame `f` has served its assignments, before the Buffer Unit tests its conditions (R95 to R97). -/
def State.buffersTried (c : CtxId) (f : Frame) (served : List Assignment × List CacheEntry × Served) (s : State) : State :=
  match served.2.2 with
  | .allServed => (s.servedTo served.2.1 c { f with assignments := served.1, phase := .gap }).gapEvaluate c
  | .cacheEmpty =>
    if s.request.any CaptureRequest.skip then (s.servedTo served.2.1 c { f with assignments := served.1 }).closeFrame c .skipped
    else s.servedTo served.2.1 c { f with assignments := served.1 }
  | .returnFront => s.servedTo served.2.1 c { f with assignments := served.1, returnAsked := true }

section Tried

variable {c : CtxId} {f : Frame} {s : State} {served : List Assignment × List CacheEntry × Served}

theorem assignBuffers_eq (ctx : s.ctx c = some f) :
    s.assignBuffers c = (s.buffersTried c f (serve f.assignments s.bufs.cache)).bufferTest := by
  have at_ : State.ctx { s with bufs := { s.bufs with cache := (serve f.assignments s.bufs.cache).2.1 } } c = some f := by
    cases c <;> exact ctx
  have served : State.updCtx c (fun f' => { f' with assignments := (serve f.assignments s.bufs.cache).1 })
      { s with bufs := { s.bufs with cache := (serve f.assignments s.bufs.cache).2.1 } } =
      s.servedTo (serve f.assignments s.bufs.cache).2.1 c { f with assignments := (serve f.assignments s.bufs.cache).1 } :=
    updCtx_of_ctx at_ _
  have again : ∀ (cache : List CacheEntry) (g h : Frame), (s.servedTo cache c g).setCtx c (some h) = s.servedTo cache c h :=
    fun cache g h => setCtx_setCtx _ _ _ _
  unfold State.assignBuffers State.buffersTried
  rw [ctx]
  dsimp only
  rw [served]
  generalize serve f.assignments s.bufs.cache = served
  cases served.2.2 with
  | allServed =>
    dsimp only
    rw [updCtx_of_ctx (servedTo_ctx _ _ _ _), again]
  | cacheEmpty =>
    dsimp only
    rw [servedTo_request]
  | returnFront =>
    dsimp only
    rw [updCtx_of_ctx (servedTo_ctx _ _ _ _), again]

theorem buffersTried_frame (c : CtxId) (f : Frame) (served : List Assignment × List CacheEntry × Served) (s : State) :
    unchangedBut (.cache :: gapEvalParts) s (s.buffersTried c f served) := by
  have set_ := fun g => servedTo_frame served.2.1 c g s
  unfold State.buffersTried
  split
  · exact ((set_ _).widen _).trans ((gapEvaluate_frame c _).widen _)
  · exact .ite (((set_ _).widen _).trans ((closeFrame_frame c _ _).widen _)) ((set_ _).widen _)
  · exact (set_ _).widen _

theorem buffersTried_cache (c : CtxId) (f : Frame) (served : List Assignment × List CacheEntry × Served) (s : State) :
    (s.buffersTried c f served).bufs.cache = served.2.1 := by
  unfold State.buffersTried
  split
  · exact (congrArg BufferUnit.cache ((gapEvaluate_frame c _).get .cache)).trans (servedTo_cache _ _ _ _)
  · split
    · exact (congrArg BufferUnit.cache ((closeFrame_frame c _ _).get .cache)).trans (servedTo_cache _ _ _ _)
    · exact servedTo_cache _ _ _ _
  · exact servedTo_cache _ _ _ _

theorem buffersTried_replayWaits (c : CtxId) (f : Frame) (served : List Assignment × List CacheEntry × Served) (s : State) :
    (s.buffersTried c f served).sensor.replayWaits = s.sensor.replayWaits := by
  unfold State.buffersTried
  split
  · rw [gapEvaluate_replayWaits, servedTo_sensor]
  · split
    · rw [sensor_of_unchanged (closeFrame_frame c _ _), servedTo_sensor]
    · rw [servedTo_sensor]
  · rw [servedTo_sensor]

theorem BuffersTried.preceded {r : CaptureRequest} {t v : State} {ps : List Part} (frame : unchangedBut ps s t)
    (h : BuffersTried r c f served t v) (sensor : t.sensor = s.sensor) (beside : t.ctx (other c) = s.ctx (other c))
    (apart : (gapReads.all fun p => !ps.contains p) = true := by decide) : BuffersTried r c f served s v := by
  have stop : ps.contains .stop = false := by
    simp only [gapReads, List.all_cons, List.all_nil, Bool.and_true, Bool.and_eq_true, Bool.not_eq_true'] at apart
    obtain ⟨-, stop, -⟩ := apart
    exact stop
  unfold BuffersTried at h ⊢
  split at h
  · exact h
  · split at h
    next skip =>
      rw [if_pos skip]
      exact h.preceded frame stop
    next keep =>
      rw [if_neg keep]
      exact h
  · rw [sensor] at h
    exact h.preceded frame beside apart

theorem triedParts_congr {t : State} (served : List Assignment × List CacheEntry × Served) (sensor : t.sensor = s.sensor)
    (beside : t.ctx (other c) = s.ctx (other c)) : triedParts c served t = triedParts c served s := by
  unfold triedParts
  rw [sensor, gapParts_congr s.sensor beside]

theorem triedParts_subset {p : Part} (h : p ∈ triedParts c served s) : p ∈ gapSets := by
  unfold triedParts at h
  split at h
  · revert p; decide
  · revert p; decide
  · exact gapParts_subset h

theorem contexts_mem_triedParts (c : CtxId) (served : List Assignment × List CacheEntry × Served) (s : State) :
    .contexts ∈ triedParts c served s := by
  unfold triedParts gapParts
  repeat' split
  all_goals simp

/-- What follows at the context and the port, `e` being a state that differs elsewhere (R31 to R33, R95 to R97, R110). -/
theorem buffersTried_followed {r : CaptureRequest} {e : State} {ps : List Part} (quiet : s.sensor.port ≠ none ∨ s.noneWaits)
    (request : s.request = some r) (frame : unchangedBut ps (s.buffersTried c f served) e) (record : e.noFlushRecord)
    (apart : ((gapSets ++ [Part.time, .power, .generation]).all fun p => !ps.contains p) = true := by decide)
    (interval : ps.contains .interval = false := by decide) :
    BuffersTried r c f served s e.follow ∧ timedBut (triedParts c served s ++ .cache :: ps) s e.follow := by
  have sets := apart
  rw [List.all_append, Bool.and_eq_true] at sets
  obtain ⟨sets, -⟩ := sets
  simp only [gapSets, List.all_cons, List.all_nil, Bool.and_true, Bool.and_eq_true, Bool.not_eq_true'] at sets
  obtain ⟨contexts, stop, -, -, -, -, -, -, port, waits⟩ := sets
  have settled {qs : List Part} {x : State} (changed : unchangedBut qs s x) (after : unchangedBut ps x e)
      (within : ∀ p ∈ qs, p = .cache ∨ p ∈ triedParts c served s) (quiet : x.sensor.port ≠ none ∨ x.noneWaits) :
      e.follow = e.tidyInterval ∧ timedBut (triedParts c served s ++ .cache :: ps) s e.follow := by
    have follow := follow_quiet e ⟨quietPort_of_unchanged quiet after port waits, record⟩
    rw [follow]
    refine ⟨rfl, timedBut_tidyInterval ((changed.mono fun p hp => ?_).trans (after.mono fun p hp => ?_)) ?_⟩
    · obtain rfl | hp := within p hp
      · exact List.mem_append_right _ List.mem_cons_self
      · exact List.mem_append_left _ hp
    · exact List.mem_append_right _ (List.mem_cons_of_mem _ hp)
    · refine Bool.eq_false_of_not_eq_true fun h => ?_
      obtain h | h := List.mem_append.mp (List.contains_iff_mem.mp h)
      · exact absurd (triedParts_subset h) (by decide)
      · obtain h | h := List.mem_cons.mp h
        · cases h
        · exact absurd (interval.symm.trans (List.contains_iff_mem.mpr h)) (by decide)
  have tidy := tidyInterval_frame e
  unfold State.buffersTried at frame
  unfold BuffersTried
  cases ended : served.2.2 with
  | allServed =>
    simp only [ended] at frame ⊢
    have set_ := servedTo_frame served.2.1 c { f with assignments := served.1, phase := .gap } s
    obtain ⟨taken, -, -, timed, -⟩ := gapTaken_followed (servedTo_ctx _ _ _ _) rfl ((servedTo_request _ _ _ _).trans request)
      (quietPort_of_unchanged quiet set_) frame record apart interval
    rw [servedTo_sensor] at taken timed
    rw [gapParts_congr s.sensor (servedTo_ctx_other _ _ _ _)] at timed
    have parts : triedParts c served s = gapParts c s.sensor s := by unfold triedParts; rw [ended]
    refine ⟨taken.preceded set_ (servedTo_ctx_other _ _ _ _), (timed.preceded set_).mono fun p hp => ?_⟩
    rw [List.append_assoc, ← parts] at hp
    obtain hp | hp := List.mem_append.mp hp
    · exact List.mem_append_left _ hp
    · obtain hp | hp := List.mem_append.mp hp
      · exact List.mem_append_right _ (List.mem_cons_of_mem _ hp)
      · obtain rfl | hp := List.mem_cons.mp hp
        · exact List.mem_append_left _ (contexts_mem_triedParts c served s)
        · exact List.mem_append_right _ (List.mem_singleton.mp hp ▸ List.mem_cons_self)
  | cacheEmpty =>
    simp only [ended, request, Option.any_some] at frame ⊢
    have set_ := servedTo_frame served.2.1 c { f with assignments := served.1 } s
    have parts : triedParts c served s = [.contexts, .stop] := by unfold triedParts; rw [ended]
    by_cases skip : r.skip = true
    · rw [if_pos skip] at frame ⊢
      have closed := closeFrame_frame c .skipped (s.servedTo served.2.1 c { f with assignments := served.1 })
      have changed : unchangedBut [.contexts, .stop, .cache] s _ := (set_.widen _).trans (closed.widen _)
      obtain ⟨follow, timed⟩ := settled changed frame (by rw [parts]; decide) (quietPort_of_unchanged quiet changed)
      refine ⟨?_, timed⟩
      rw [follow]
      exact (((closeFrame_closed (servedTo_ctx _ _ _ _) .skipped).preceded set_).followed frame contexts stop).followed tidy
    · rw [if_neg skip] at frame ⊢
      obtain ⟨follow, timed⟩ := settled set_ frame (by rw [parts]; decide) (quietPort_of_unchanged quiet set_)
      refine ⟨?_, timed⟩
      rw [follow, tidyInterval_ctx, ctx_of_contexts frame c contexts, servedTo_ctx]
  | returnFront =>
    simp only [ended] at frame ⊢
    have set_ := servedTo_frame served.2.1 c { f with assignments := served.1, returnAsked := true } s
    have parts : triedParts c served s = [.contexts] := by unfold triedParts; rw [ended]
    obtain ⟨follow, timed⟩ := settled set_ frame (by rw [parts]; decide) (quietPort_of_unchanged quiet set_)
    refine ⟨?_, timed⟩
    rw [follow, tidyInterval_ctx, ctx_of_contexts frame c contexts, servedTo_ctx]

/-- The context beside one that serves its assignments stands (R110). -/
theorem buffersTried_follow_other {e : State} {ps : List Part} (quiet : s.sensor.port ≠ none ∨ s.noneWaits)
    (frame : unchangedBut ps (s.buffersTried c f served) e) (record : e.noFlushRecord)
    (apart : ((gapSets ++ [Part.time, .power, .generation]).all fun p => !ps.contains p) = true := by decide) :
    e.follow.ctx (other c) = s.ctx (other c) := by
  have sets := apart
  rw [List.all_append, Bool.and_eq_true] at sets
  obtain ⟨sets, -⟩ := sets
  simp only [gapSets, List.all_cons, List.all_nil, Bool.and_true, Bool.and_eq_true, Bool.not_eq_true'] at sets
  obtain ⟨contexts, -, -, -, -, -, -, -, port, waits⟩ := sets
  have settled {x : State} (after : unchangedBut ps x e) (quiet : x.sensor.port ≠ none ∨ x.noneWaits)
      (beside : x.ctx (other c) = s.ctx (other c)) : e.follow.ctx (other c) = s.ctx (other c) := by
    rw [follow_quiet e ⟨quietPort_of_unchanged quiet after port waits, record⟩, tidyInterval_ctx]
    exact (ctx_of_contexts after _ contexts).trans beside
  have set_ := fun g => servedTo_frame served.2.1 c g s
  unfold State.buffersTried at frame
  split at frame
  · exact (gapEvaluate_follow_other (quietPort_of_unchanged quiet (set_ _)) frame record apart).trans (servedTo_ctx_other _ _ _ _)
  · split at frame
    · exact settled frame (quietPort_of_unchanged (quietPort_of_unchanged quiet (set_ _)) (closeFrame_frame c _ _))
        ((closeFrame_ctx_other c _ _).trans (servedTo_ctx_other _ _ _ _))
    · exact settled frame (quietPort_of_unchanged quiet (set_ _)) (servedTo_ctx_other _ _ _ _)
  · exact settled frame (quietPort_of_unchanged quiet (set_ _)) (servedTo_ctx_other _ _ _ _)

end Tried

end Sys2Proof.Machine
end

section
/-! PROOFS of O22: a buffer entry read joins the Buffer Cache and is served. -/

set_option Elab.async false

namespace Sys2Proof.Machine

open Sys2Proof

/-! ## The entry joins the cache (R91, R153) -/

theorem parseBuffer_eq (position : Nat) (data : List Byte) : parseBuffer position data = placedBuffer position data := by
  unfold parseBuffer placedBuffer
  congr 1
  exact decide_eq_decide.mpr (and_congr_left fun _ => Nat.dvd_iff_mod_eq_zero.symm)

section Joined

variable {u : Setup} {s : State}

theorem joinCache_eq (held : s.ring.setup = some u) (e : CacheEntry) : s.joinCache e = { s with
    ring := { s.ring with bufRead := none, bufHead := (s.ring.bufHead + 1) % u.buffer.size }
    link := { s.link with issued := s.link.issued ++
      [progressWrite u s.ring.ctlHead s.ring.capHead ((s.ring.bufHead + 1) % u.buffer.size)] }
    bufs := { s.bufs with cache := s.bufs.cache ++ [e] } } := by
  simp [State.joinCache, State.advanceRing, State.writeProgress, held, State.issue, progressWrite_eq, State.ringHead, State.ringSize]

theorem exec_bufferEntryRead (reading : s.ring.bufRead.isSome = true) (data : List Byte) :
    exec (.bufferEntryRead data) s =
      .next ((s.joinCache (placedBuffer s.ring.bufHead data)).bufferArrived.bufferTest).follow := by
  obtain ⟨read, is⟩ := Option.isSome_iff_exists.mp reading
  show Host.Outcome.next _ = _
  rw [is, ← parseBuffer_eq]
  rfl

/-- The Buffer Unit's read after its test, with none under way (R93). -/
theorem bufferTest_unread {w : State} (held : w.ring.setup = some u) (read : w.ring.bufRead = none) : w.bufferTest = { w with
    ring := { w.ring with
      bufRead := if w.link.part = .running ∧ w.ring.bufHead ≠ w.ring.bufTail.toNat ∧
          w.bufs.cache.length < min 32 (u.buffer.size - 1) then some (readAt u w.ring.bufHead w .buffer) else none } } := by
  have guard : (w.link.part = .running ∧ w.ringWaiting .buffer = true ∧ w.bufs.cache.length < w.cacheCapacity ∧ w.ring.bufRead = none) ↔
      w.link.part = .running ∧ w.ring.bufHead ≠ w.ring.bufTail.toNat ∧ w.bufs.cache.length < min 32 (u.buffer.size - 1) := by
    have capacity : w.cacheCapacity = min 32 (u.buffer.size - 1) := by
      simp [State.cacheCapacity, State.ringSize, held, Config.cacheDepth]
    have waiting : w.ringWaiting .buffer = true ↔ w.ring.bufHead ≠ w.ring.bufTail.toNat := decide_eq_true_iff
    rw [capacity, waiting, read]
    exact ⟨fun ⟨running, waits, room, _⟩ => ⟨running, waits, room⟩, fun ⟨running, waits, room⟩ => ⟨running, waits, room, rfl⟩⟩
  unfold State.bufferTest
  rw [if_congr guard rfl rfl]
  split
  · rw [recordRead_eq u .buffer w held]
    rfl
  · rw [← read]

theorem bufferTest_bufHead (w : State) : w.bufferTest.ring.bufHead = w.ring.bufHead := by
  unfold State.bufferTest
  split <;> rfl

theorem bufferArrived_none (c0 : awaitsBuffer s.seq.ctx0 = false) (c1 : awaitsBuffer s.seq.ctx1 = false) : s.bufferArrived = s := by
  unfold State.bufferArrived
  rw [c0, c1]
  rfl

theorem bufferArrived_one {c : CtxId} (awaits : awaitsBuffer (s.ctx c) = true) (beside : awaitsBuffer (s.ctx (other c)) = false) :
    s.bufferArrived = s.assignBuffers c := by
  unfold State.bufferArrived
  cases c
  · exact if_pos awaits
  · rw [show awaitsBuffer s.seq.ctx0 = false from beside]
    exact if_pos awaits

end Joined

/-- Settles O22: `joinCache_eq`, and the context that waits serves its assignments (`buffersTried_followed`). -/
theorem bufferEntryJoinsTheCache : Obligations.BufferEntryJoinsTheCache := by
  unfold Obligations.BufferEntryJoinsTheCache
  intro u data s reading held portQuiet head e heads placed
  subst placed
  obtain ⟨quiet, record⟩ := portQuiet
  rw [exec_bufferEntryRead reading]
  have eq := joinCache_eq held (placedBuffer s.ring.bufHead data)
  have frame := joinCache_frame (placedBuffer s.ring.bufHead data) s
  have setup : (s.joinCache (placedBuffer s.ring.bufHead data)).ring.setup = some u := by rw [eq]; exact held
  have read : (s.joinCache (placedBuffer s.ring.bufHead data)).ring.bufRead = none := by rw [eq]
  have moved : (s.joinCache (placedBuffer s.ring.bufHead data)).ring.bufHead = head := by rw [eq, heads]
  have issued : (s.joinCache (placedBuffer s.ring.bufHead data)).link.issued =
      s.link.issued ++ [progressWrite u s.ring.ctlHead s.ring.capHead head] := by rw [eq, heads]
  have cache : (s.joinCache (placedBuffer s.ring.bufHead data)).bufs.cache =
      s.bufs.cache ++ [placedBuffer s.ring.bufHead data] := by rw [eq]
  have tail : (s.joinCache (placedBuffer s.ring.bufHead data)).ring.bufTail = s.ring.bufTail := by rw [eq]
  generalize s.joinCache (placedBuffer s.ring.bufHead data) = j at *
  have still := quietPort_of_unchanged quiet frame
  have noRecord := noFlushRecord_of_unchanged record frame
  have same : ∀ c, j.ctx c = s.ctx c := ctx_of_contexts frame
  refine ⟨fun c0 c1 => ?_, fun c f r ctx awaits beside request served is => ?_⟩
  · rw [bufferArrived_none (s := j) (by exact (congrArg awaitsBuffer (same .c0)).trans c0)
      (by exact (congrArg awaitsBuffer (same .c1)).trans c1)]
    have tested := bufferTest_frame j
    have tidy := tidyInterval_frame j.bufferTest
    rw [follow_quiet j.bufferTest ⟨quietPort_of_unchanged still tested, noFlushRecord_of_unchanged noRecord tested⟩]
    refine ⟨_, rfl, ?_, ?_, ?_, ?_, timedBut_tidyInterval ((frame.widen _).trans (tested.widen _))⟩
    · exact (congrArg BufferUnit.cache ((tidy.get .cache).trans (tested.get .cache))).trans cache
    · rw [tidyInterval_ring, bufferTest_bufHead, moved]
    · exact ((tidy.get .issued).trans (tested.get .issued)).trans issued
    · rw [tidyInterval_ring, bufferTest_unread setup read]
      dsimp only
      rw [moved, tail, cache, List.length_append, List.length_singleton,
        show j.link.part = s.link.part from frame.get .partState, readAt, readFrom, readAt, readFrom,
        show j.now = s.now from frame.get .time]
  · rw [bufferArrived_one ((congrArg awaitsBuffer (same c)).trans awaits) ((congrArg awaitsBuffer (same _)).trans beside),
      assignBuffers_eq ((same c).trans ctx), cache, ← is]
    have tried := buffersTried_frame c f served j
    have tested : unchangedBut [.bufRing] (j.buffersTried c f served) (j.buffersTried c f served).bufferTest.bufferTest :=
      (bufferTest_frame _).trans (bufferTest_frame _)
    have noRecord := noFlushRecord_of_unchanged (noFlushRecord_of_unchanged noRecord tried) tested
    obtain ⟨taken, timed⟩ := buffersTried_followed still
      ((congrArg (fun q => q.head?.bind Entry.request) (frame.get .queue)).trans request) tested noRecord
    have kept := buffersTried_follow_other still tested noRecord
    have link : (j.buffersTried c f served).bufferTest.bufferTest.sensor.port = j.sensor.port :=
      (tested.get .port).trans (tried.get .port)
    have replay : (j.buffersTried c f served).bufferTest.bufferTest.sensor.replayWaits = j.sensor.replayWaits :=
      (congrArg SensorLink.replayWaits (sensor_of_unchanged tested)).trans (buffersTried_replayWaits c f served j)
    have followed := follow_noRecord noRecord (by rw [link, replay]; exact still.imp_right fun h => h.1)
    have sensor := sensor_of_unchanged frame
    rw [triedParts_congr (s := s) served sensor (same _)] at timed
    refine ⟨_, rfl, ?_, ?_, ?_, taken.preceded frame sensor (same _), kept.trans (same _), (timed.preceded frame).mono fun p hp => ?_⟩
    · exact (congrArg BufferUnit.cache ((followed.get .cache).trans (tested.get .cache))).trans (buffersTried_cache c f served j)
    · calc (j.buffersTried c f served).bufferTest.bufferTest.follow.ring.bufHead
          = (j.buffersTried c f served).bufferTest.bufferTest.ring.bufHead := congrArg Prod.fst (followed.get .bufRing)
        _ = (j.buffersTried c f served).ring.bufHead := by rw [bufferTest_bufHead, bufferTest_bufHead]
        _ = j.ring.bufHead := congrArg Prod.fst (tried.get .bufRing)
        _ = head := moved
    · exact ((followed.get .issued).trans ((tested.get .issued).trans (tried.get .issued))).trans issued
    · rw [List.append_assoc] at hp
      exact (List.mem_append.mp hp).elim (List.mem_append_right _) fun tail =>
        List.mem_append_left _ (by revert tail; clear hp; revert p; decide)

end Sys2Proof.Machine
end

section
/-! SUPPORT for O24. What a change of a context, of the port or of the staged list leaves of the reserved slots (R164), and each
requester's grant (R165). -/

set_option Elab.async false

namespace Sys2Proof.Machine

open Sys2Proof

/-! ## Credit kept -/

/-- A frame's credit and the slots that it is for. -/
def Frame.holding (f : Frame) : Bool × Nat := (f.creditHeld, f.slots)

/-- Each context keeps its frame's credit, and the queue and the staged list their lengths. -/
def CreditKept (s t : State) : Prop :=
  (∀ c, (t.ctx c).map Frame.holding = (s.ctx c).map Frame.holding) ∧
    t.sched.queue.length = s.sched.queue.length ∧ t.sensor.staged.length = s.sensor.staged.length

theorem CreditKept.refl (s : State) : CreditKept s s := ⟨fun _ => rfl, rfl, rfl⟩

theorem CreditKept.trans {s t u : State} (h : CreditKept s t) (k : CreditKept t u) : CreditKept s u := by
  obtain ⟨ctx, queue, staged⟩ := h
  obtain ⟨ctx', queue', staged'⟩ := k
  exact ⟨fun c => (ctx' c).trans (ctx c), queue'.trans queue, staged'.trans staged⟩

theorem CreditKept.of_unchanged {s t : State} {ps : List Part} (frame : unchangedBut ps s t)
    (apart : ([Part.contexts, .queue, .staged].all fun p => !ps.contains p) = true := by decide) : CreditKept s t := by
  simp only [List.all_cons, List.all_nil, Bool.and_true, Bool.and_eq_true, Bool.not_eq_true'] at apart
  obtain ⟨contexts, queue, staged⟩ := apart
  exact ⟨fun c => by rw [ctx_of_contexts frame c contexts], congrArg List.length (frame.get .queue queue),
    congrArg List.length (frame.get .staged staged)⟩

theorem CreditKept.of_ctx {s t : State} {c : CtxId} {f g : Frame} (ctx : s.ctx c = some f) (ctx' : t.ctx c = some g)
    (same : g.holding = f.holding) (beside : t.ctx (other c) = s.ctx (other c))
    (queue : t.sched.queue.length = s.sched.queue.length) (staged : t.sensor.staged.length = s.sensor.staged.length) :
    CreditKept s t := by
  refine ⟨(forall_ctx c _).mpr ⟨?_, by rw [beside]⟩, queue, staged⟩
  rw [ctx, ctx', Option.map_some, Option.map_some, same]

theorem heldSlots_of_holding {f g : Option Frame} (h : g.map Frame.holding = f.map Frame.holding) : heldSlots g = heldSlots f := by
  cases f <;> cases g <;> simp_all [heldSlots, Frame.holding]

theorem CreditKept.reserved {s t : State} (h : CreditKept s t) (capture : t.sched.credit = s.sched.credit)
    (engine : t.engine.credit = s.engine.credit) : t.reserved = s.reserved := by
  obtain ⟨ctx, queue, staged⟩ := h
  have c0 : heldSlots t.seq.ctx0 = heldSlots s.seq.ctx0 := heldSlots_of_holding (ctx .c0)
  have c1 : heldSlots t.seq.ctx1 = heldSlots s.seq.ctx1 := heldSlots_of_holding (ctx .c1)
  unfold State.reserved
  rw [queue, staged, c0, c1, capture, engine]

theorem CreditKept.creditHeld {s t : State} (h : CreditKept s t) (c : CtxId) :
    (t.ctx c).any Frame.creditHeld = (s.ctx c).any Frame.creditHeld := by
  obtain ⟨ctx, -, -⟩ := h
  have same := ctx c
  cases before : s.ctx c <;> cases behind : t.ctx c <;> simp_all [Frame.holding]

section Operations

variable {s : State} {c : CtxId}

theorem closeFrame_creditKept (c : CtxId) (o : FrameOutcome) (s : State) : CreditKept s (s.closeFrame c o) := by
  cases ctx : s.ctx c with
  | none =>
    rw [closeFrame_free ctx o]
    exact .refl s
  | some f =>
    have frame := closeFrame_frame c o s
    obtain ⟨closed, -⟩ := closeFrame_closed ctx o
    exact .of_ctx ctx closed rfl (closeFrame_ctx_other c o s) (congrArg List.length (frame.get .queue))
      (congrArg List.length (frame.get .staged))

theorem StartMet.holding {r : CaptureRequest} {f : Frame} {t : State} (h : StartMet r c f s t) :
    ∃ g, t.ctx c = some g ∧ g.holding = f.holding := by
  unfold StartMet at h
  split at h
  · obtain ⟨ctx, -⟩ := h
    exact ⟨_, ctx, rfl⟩
  · obtain ⟨ctx, -⟩ := h
    exact ⟨_, ctx, rfl⟩

theorem WaitStartEntered.holding {r : CaptureRequest} {f : Frame} {gen : Word} {t : State} (h : WaitStartEntered r c f gen s t) :
    ∃ g, t.ctx c = some g ∧ g.holding = f.holding := by
  obtain ⟨-, -, software, latched, waits⟩ := h
  by_cases source : r.source = .software
  · exact (software source).1.holding
  by_cases latch : s.seq.latch = true
  · exact (latched source latch).1.holding
  obtain ⟨ctx, -⟩ := waits source (Bool.not_eq_true _ ▸ latch)
  refine ⟨_, ctx, ?_⟩
  split <;> rfl

theorem enterWaitStart_creditKept {f : Frame} (ctx : s.ctx c = some f) (r : CaptureRequest) :
    CreditKept s (s.enterWaitStart r c) := by
  have frame := enterWaitStart_frame r c s
  obtain ⟨entered, beside⟩ := enterWaitStart_entered ctx r
  obtain ⟨g, ctx', same⟩ := entered.holding
  obtain ⟨-, queue, -⟩ := entered
  refine .of_ctx ctx ctx' same beside ?_ (congrArg List.length (frame.get .staged))
  rw [queue]
  cases s.sched.queue with
  | nil => rfl
  | cons e rest => simp

theorem gapAdvance_creditKept (c : CtxId) (s : State) : CreditKept s (s.gapAdvance c) := by
  by_cases settled : GapSettled c s
  · rw [gapAdvance_of_settled settled]
    exact .refl s
  · obtain ⟨f, r, ctx, closes | enters⟩ := gapAdvance_moves settled
    · rw [closes]
      exact closeFrame_creditKept c _ s
    · rw [enters]
      exact enterWaitStart_creditKept ctx r

theorem gapEvaluate_creditKept (c : CtxId) (s : State) : CreditKept s (s.gapEvaluate c) := by
  have advanced := gapAdvance_creditKept c s
  unfold State.gapEvaluate
  dsimp only
  split
  · exact advanced.trans (.of_unchanged (flushWaits_frame _ true))
  · exact advanced

theorem beginFlush_creditKept (s : State) : CreditKept s s.beginFlush := by
  have frame := beginFlush_frame s
  refine ⟨fun c => by rw [ctx_of_contexts frame c], congrArg List.length (frame.get .queue), ?_⟩
  cases staged : s.sensor.staged with
  | nil => simp [State.beginFlush, State.writeFront, staged]
  | cons e rest =>
    rw [beginFlush_of_staged staged]
    rfl

/-- With no FLUSH_STAGED in hand and no replay to go on, the port's requests leave the credit of the frames. -/
theorem follow_creditKept (record : s.noFlushRecord) (replay : s.sensor.port ≠ none ∨ s.sensor.replayWaits = false) :
    CreditKept s s.follow := by
  have kept : s.grantReplay = s := by
    obtain busy | idle := replay
    · unfold State.grantReplay
      rw [if_neg fun h => busy h.1]
    · exact grantReplay_of_not_waiting idle
  have flush : CreditKept s s.grantFlush := by
    unfold State.grantFlush
    split
    · have waits := flushWaits_frame s false
      refine CreditKept.trans (.of_unchanged waits) ?_
      dsimp only
      split
      · exact beginFlush_creditKept _
      · have advanced := gapAdvance_frame .c0 { s with sensor := { s.sensor with flushWaits := false } }
        have advanced' := gapAdvance_frame .c1 (State.gapAdvance .c0 { s with sensor := { s.sensor with flushWaits := false } })
        rw [checkFlushRecord_other _ (noFlushRecord_of_unchanged (noFlushRecord_of_unchanged (noFlushRecord_of_unchanged record waits)
          advanced) advanced')]
        exact (gapAdvance_creditKept .c0 _).trans (gapAdvance_creditKept .c1 _)
    · exact .refl s
  unfold State.follow State.arbitrate
  rw [checkFlushRecord_other s record, kept]
  exact flush.trans ((CreditKept.of_unchanged (grantEngine_frame _)).trans (.of_unchanged (tidyInterval_frame _)))

theorem servedTo_creditKept {f g : Frame} (ctx : s.ctx c = some f) (same : g.holding = f.holding) (cache : List CacheEntry) :
    CreditKept s (s.servedTo cache c g) := by
  have frame := servedTo_frame cache c g s
  exact .of_ctx ctx (servedTo_ctx _ _ _ _) same (servedTo_ctx_other _ _ _ _) (congrArg List.length (frame.get .queue))
    (congrArg List.length (frame.get .staged))

theorem assignBuffers_creditKept {f : Frame} (ctx : s.ctx c = some f) : CreditKept s (s.assignBuffers c) := by
  rw [assignBuffers_eq ctx]
  refine CreditKept.trans ?_ (.of_unchanged (bufferTest_frame _))
  unfold State.buffersTried
  split
  · exact (servedTo_creditKept ctx (by rfl) _).trans (gapEvaluate_creditKept c _)
  · split
    · exact (servedTo_creditKept ctx (by rfl) _).trans (closeFrame_creditKept c _ _)
    · exact servedTo_creditKept ctx (by rfl) _
  · exact servedTo_creditKept ctx (by rfl) _

end Operations

/-! ## The free credit (R164) -/

/-- One slot on, while the ring is not full, wherever its positions stand. -/
theorem ringDistance_next {u : Setup} {start : Nat} {at_ : Nat × Bool}
    (room : ringDistance u.completion.size start at_.1 + 1 < u.completion.size) :
    ringDistance u.completion.size start (slotBehind u at_).1 = ringDistance u.completion.size start at_.1 + 1 := by
  unfold ringDistance at room ⊢
  have below : start % u.completion.size < u.completion.size := Nat.mod_lt _ (by omega)
  generalize start % u.completion.size = from_ at *
  have step : (at_.1 + 1 + u.completion.size - from_) % u.completion.size =
      (at_.1 + u.completion.size - from_) % u.completion.size + 1 := by
    rw [show at_.1 + 1 + u.completion.size - from_ = at_.1 + u.completion.size - from_ + 1 by omega, Nat.add_mod, Nat.mod_eq_of_lt (a := 1) (by omega),
      Nat.mod_eq_of_lt (by omega)]
  rw [← step]
  unfold slotBehind
  split
  next last =>
    rw [show at_.1 + 1 + u.completion.size - from_ = 0 + u.completion.size - from_ + u.completion.size by omega, Nat.add_mod_right]
  next => rfl

/-- The free credit behind slots that were reserved or written of it (R164). -/
theorem freeCredit_taken {s x : State} {n : Nat} (size : x.cplSize = s.cplSize)
    (taken : x.unfreed + x.reserved = s.unfreed + s.reserved + n) (covered : n ≤ s.freeCredit) : x.freeCredit + n = s.freeCredit := by
  unfold State.freeCredit at covered ⊢
  omega

theorem ringView_of_unchanged {s x : State} {ps : List Part} (frame : unchangedBut ps s x)
    (apart : ([Part.setup, .slots, .cplHead].all fun p => !ps.contains p) = true := by decide) :
    x.cplSize = s.cplSize ∧ x.unfreed = s.unfreed := by
  simp only [List.all_cons, List.all_nil, Bool.and_true, Bool.and_eq_true, Bool.not_eq_true'] at apart
  obtain ⟨setup, slots, head⟩ := apart
  have sameSetup := frame.get .setup setup
  have sameSlots := frame.get .slots slots
  have sameHead := frame.get .cplHead head
  simp only [Part.same, Prod.mk.injEq] at sameSetup sameSlots sameHead
  exact ⟨by simp only [State.cplSize, sameSetup], by simp only [State.unfreed, State.cplSize, sameSetup, sameSlots.1, sameHead]⟩

theorem freeCredit_reserved {s x : State} {ps : List Part} {n : Nat} (frame : unchangedBut ps s x)
    (reserved : x.reserved = s.reserved + n) (covered : n ≤ s.freeCredit)
    (apart : ([Part.setup, .slots, .cplHead].all fun p => !ps.contains p) = true := by decide) : x.freeCredit + n = s.freeCredit := by
  obtain ⟨size, unfreed⟩ := ringView_of_unchanged frame apart
  exact freeCredit_taken size (by omega) covered

end Sys2Proof.Machine
end

section
/-! SUPPORT for O24. Each requester's grant (R3, R95, R96, R106, R133, R165). -/

set_option Elab.async false

namespace Sys2Proof.Machine

open Sys2Proof

/-! ## The Capture Scheduler and the Control Engine -/

section Tests

variable {s : State}

/-- The Capture Scheduler with its credit held begins the read that it is for (R3). -/
theorem captureTest_held (held : s.sched.credit = .held) (may : s.captureMayFetch = true) : s.captureTest = { s with
    ring := { s.ring with
      capRead := if (s.sched.queue.length < 4 ∧ s.ringWaiting .capture = true) ∧ s.ring.capRead = none then s.recordRead .capture
        else s.ring.capRead } } := by
  have on : ¬ (s.link.part = .draining ∧ s.sched.flushMark = none) := by
    rintro ⟨draining, mark⟩
    simp [State.captureMayFetch, draining, mark] at may
  unfold State.captureTest
  rw [if_neg on, held]
  by_cases waits : s.sched.queue.length < 4 ∧ s.ringWaiting .capture = true
  · obtain ⟨room, waiting⟩ := waits
    by_cases read : s.ring.capRead = none <;> simp [may, room, waiting, read, Config.queueDepth]
  · rw [if_neg fun h => waits h.2]
    simp [waits]

/-- The Control Engine with its credit held begins the read that it is for (R133). -/
theorem engineTest_held (held : s.engine.credit = .held) (mode : s.engine.mode = .waitCredit) : s.engineTest = { s with
    ring := { s.ring with
      ctlRead := if (s.link.part = .running ∧ s.ringWaiting .control = true) ∧ s.ring.ctlRead = none then s.recordRead .control
        else s.ring.ctlRead } } := by
  unfold State.engineTest
  rw [mode]
  by_cases waits : s.link.part = .running ∧ s.ringWaiting .control = true
  · by_cases read : s.ring.ctlRead = none <;> simp [waits, held, read]
  · simp [waits]

theorem grant_capture (may : s.captureMayFetch = true) : s.grant .capture = { s with
    sched := { s.sched with credit := .held }
    ring := { s.ring with
      capRead := if (s.sched.queue.length < 4 ∧ s.ringWaiting .capture = true) ∧ s.ring.capRead = none then s.recordRead .capture
        else s.ring.capRead } } :=
  captureTest_held (s := { s with sched := { s.sched with credit := .held } }) rfl may

theorem grant_engine (mode : s.engine.mode = .waitCredit) : s.grant .engine = { s with
    engine := { s.engine with credit := .held }
    ring := { s.ring with
      ctlRead := if (s.link.part = .running ∧ s.ringWaiting .control = true) ∧ s.ring.ctlRead = none then s.recordRead .control
        else s.ring.ctlRead } } :=
  engineTest_held (s := { s with engine := { s.engine with credit := .held } }) rfl mode

theorem grant_capture_frame (s : State) : unchangedBut [.capCredit, .capRing] s (s.grant .capture) := by
  refine .trans (t := { s with sched := { s.sched with credit := .held } }) ?_ (captureTest_frame _)
  intro p hp; cases p <;> first | rfl | exact absurd (by decide) hp

theorem grant_engine_frame (s : State) : unchangedBut [.engine, .ctlRing] s (s.grant .engine) := by
  refine .trans (t := { s with engine := { s.engine with credit := .held } }) ?_ (engineTest_frame _)
  intro p hp; cases p <;> first | rfl | exact absurd (by decide) hp

theorem grant_capture_reserved (asked : s.sched.credit = .asked) (may : s.captureMayFetch = true) :
    (s.grant .capture).reserved = s.reserved + 1 := by
  rw [grant_capture may]
  simp only [State.reserved, asked, CreditState.slots]
  omega

theorem grant_engine_reserved (asked : s.engine.credit = .asked) (mode : s.engine.mode = .waitCredit) :
    (s.grant .engine).reserved = s.reserved + 1 := by
  rw [grant_engine mode]
  simp only [State.reserved, asked, CreditState.slots]
  omega

end Tests

/-! ## The Buffer Unit in a drain (R106) -/

section Returns

variable {s : State} {e : CacheEntry} {rest : List CacheEntry}

/-- The front entry has left the cache with its BUFFER_RETURN. -/
def State.entryReturned (reason : ReturnReason) (e : CacheEntry) (rest : List CacheEntry) (s : State) : State :=
  { s with bufs := { s.bufs with cache := rest } }.handOver (.bufferReturn e.tag reason)

theorem returnFront_eq (cache : s.bufs.cache = e :: rest) (reason : CacheEntry → ReturnReason) :
    s.returnFront reason = (s.entryReturned (reason e) e rest).bufferTest := by
  unfold State.returnFront
  rw [cache]
  rfl

theorem cache_frame (cache : List CacheEntry) (s : State) : unchangedBut [.cache] s { s with bufs := { s.bufs with cache := cache } } := by
  intro p hp; cases p <;> first | rfl | exact absurd (by decide) hp

theorem entryReturned_frame (reason : ReturnReason) (e : CacheEntry) (rest : List CacheEntry) (s : State) :
    unchangedBut (.cache :: postParts) s (s.entryReturned reason e rest) :=
  ((cache_frame rest s).widen _).trans ((handOver_frame _ _).widen _)

theorem entryReturned_cache (reason : ReturnReason) (e : CacheEntry) (rest : List CacheEntry) (s : State) :
    (s.entryReturned reason e rest).bufs.cache = rest :=
  congrArg BufferUnit.cache ((handOver_frame _ { s with bufs := { s.bufs with cache := rest } }).get .cache)

theorem entryReturned_posts {u : Setup} (held : s.ring.setup = some u) (reason : ReturnReason) (e : CacheEntry)
    (rest : List CacheEntry) : Posts u [] [.bufferReturn e.tag reason] s (s.entryReturned reason e rest) :=
  (handOver_posts u _ { s with bufs := { s.bufs with cache := rest } } held).preceded (cache_frame rest s)

theorem bufferTest_of_draining (draining : s.link.part = .draining) : s.bufferTest = s := by
  unfold State.bufferTest
  rw [if_neg fun h => by rw [draining] at h; exact absurd h.1 (by decide)]

theorem grant_buffer (draining : s.link.part = .draining) (cache : s.bufs.cache = e :: rest) :
    s.grant .buffer = s.entryReturned e.drainReason e rest := by
  have part : (s.entryReturned e.drainReason e rest).link.part = s.link.part := (entryReturned_frame _ _ _ _).get .partState
  show s.returnFront CacheEntry.drainReason = _
  rw [returnFront_eq cache, bufferTest_of_draining (part.trans draining)]

/-- The return takes one slot of the free credit (R164). -/
theorem entryReturned_freeCredit (reason : ReturnReason) (e : CacheEntry) (rest : List CacheEntry) (covered : 1 ≤ s.freeCredit) :
    (s.entryReturned reason e rest).freeCredit + 1 = s.freeCredit := by
  have frame := entryReturned_frame reason e rest s
  have setup : (s.entryReturned reason e rest).ring.setup = s.ring.setup := frame.get .setup
  have head : (s.entryReturned reason e rest).cpl.head = s.cpl.head := frame.get .cplHead
  cases held : s.ring.setup with
  | none => simp [State.freeCredit, State.cplSize, held] at covered
  | some u =>
    obtain ⟨-, handed, -⟩ := entryReturned_posts held reason e rest
    have slot : (s.entryReturned reason e rest).cpl.tail = (slotBehind u (s.cpl.tail, s.cpl.phase)).1 :=
      congrArg Prod.fst ((congrArg Handed.slot handed).trans (foldNext_slot u s.now [.bufferReturn e.tag reason] s.handed))
    refine freeCredit_taken (by rw [cplSize_of_setup held, cplSize_of_setup (setup.trans held)]) ?_ covered
    rw [reserved_of_unchanged frame, State.unfreed, State.unfreed, cplSize_of_setup held, cplSize_of_setup (setup.trans held),
      head, slot, ringDistance_next]
    · dsimp only
      omega
    · rw [State.freeCredit, State.unfreed, cplSize_of_setup held] at covered
      dsimp only
      omega

end Returns

/-! ## The Exposure Sequencer -/

section Frames

variable {s : State} {c : CtxId} {f : Frame}

/-- A frame with the byte sizes of its windows (R95). -/
def Frame.measured (s : State) (f : Frame) : Frame :=
  { f with assignments := f.assignments.map fun a => { a with byteSize := s.windowBytes a.window } }

theorem windowBytes_setCtx (c : CtxId) (g : Option Frame) (s : State) : (s.setCtx c g).windowBytes = s.windowBytes := by
  cases c <;> rfl

/-- A context goes on with its frame credit (R30, R46, R95). -/
theorem grantFrame_credits (ctx : s.ctx c = some f) (unheld : f.creditHeld = false) : s.grantFrame c =
    if f.phase = .reserving then (s.setCtx c (some (Frame.measured s { f with creditHeld := true }))).assignBuffers c
    else s.setCtx c (some { f with creditHeld := true }) := by
  unfold State.grantFrame
  rw [ctx]
  dsimp only
  rw [if_neg fun h => absurd (unheld.symm.trans h.2) (by decide), updCtx_of_ctx ctx]
  split
  · unfold State.measure
    rw [updCtx_of_ctx (setCtx_ctx_same _ _ _), setCtx_setCtx, windowBytes_setCtx]
    rfl
  · rfl

/-- A context whose return is granted returns the front entry and serves on (R96). -/
theorem grantFrame_returns (ctx : s.ctx c = some f) (asked : f.returnAsked = true) (held : f.creditHeld = true) {e : CacheEntry}
    {rest : List CacheEntry} (cache : s.bufs.cache = e :: rest) : s.grantFrame c =
      ((s.setCtx c (some { f with returnAsked := false })).entryReturned e.refusal e rest).bufferTest.assignBuffers c := by
  unfold State.grantFrame
  rw [ctx]
  dsimp only
  rw [if_pos ⟨asked, held⟩, updCtx_of_ctx ctx, returnFront_eq (by rw [setCtx_bufs]; exact cache)]

theorem setCtx_reserved (ctx : s.ctx c = some f) (unheld : f.creditHeld = false) {g : Frame} (held : g.holding = (true, f.slots)) :
    (s.setCtx c (some g)).reserved = s.reserved + f.slots := by
  have frames := heldByFrames_setCtx s c (some g)
  obtain ⟨credit, slots⟩ := Prod.mk.inj held
  rw [ctx] at frames
  simp only [heldSlots, unheld, credit, slots, Bool.false_eq_true, if_false, if_true, Nat.add_zero] at frames
  rw [reserved_eq, reserved_eq, frames]
  cases c <;> simp only [State.setCtx] <;> omega

theorem grantFrame_reserved (ctx : s.ctx c = some f) (unheld : f.creditHeld = false) :
    (s.grantFrame c).reserved = s.reserved + f.slots := by
  rw [grantFrame_credits ctx unheld]
  split
  · have kept := assignBuffers_creditKept (setCtx_ctx_same s c (some (Frame.measured s { f with creditHeld := true })))
    have frame := assignBuffers_frame c (s.setCtx c (some (Frame.measured s { f with creditHeld := true })))
    rw [kept.reserved (frame.get .capCredit) (congrArg Engine.credit (frame.get .engine)), setCtx_reserved ctx unheld (by rfl)]
  · rw [setCtx_reserved ctx unheld (by rfl)]

theorem grantFrame_creditHeld (ctx : s.ctx c = some f) (unheld : f.creditHeld = false) :
    ((s.grantFrame c).ctx c).any Frame.creditHeld = true := by
  rw [grantFrame_credits ctx unheld]
  split
  · rw [(assignBuffers_creditKept (setCtx_ctx_same s c _)).creditHeld, setCtx_ctx_same]
    rfl
  · rw [setCtx_ctx_same]
    rfl

theorem grantFrame_credit_frame (ctx : s.ctx c = some f) (unheld : f.creditHeld = false) :
    unchangedBut assignParts s (s.grantFrame c) := by
  rw [grantFrame_credits ctx unheld]
  exact .ite (((setCtx_frame _ _ _).widen _).trans (assignBuffers_frame _ _)) ((setCtx_frame _ _ _).widen _)

theorem assignBuffers_cache (ctx : s.ctx c = some f) : (s.assignBuffers c).bufs.cache = (serve f.assignments s.bufs.cache).2.1 := by
  rw [assignBuffers_eq ctx]
  exact (congrArg BufferUnit.cache ((bufferTest_frame _).get .cache)).trans (buffersTried_cache _ _ _ _)

end Frames

/-! ## Requests -/

section Requests

variable {s x : State} {ps : List Part}

theorem firstRequest_waits {r : Requester} {n : Nat} (h : s.firstRequest = some (r, n)) : s.waitingRequest r = some n := by
  obtain ⟨q, -, asked⟩ := List.exists_of_findSome?_eq_some h
  obtain ⟨m, waits, is⟩ := Option.map_eq_some_iff.mp asked
  obtain ⟨rfl, rfl⟩ := Prod.mk.inj is
  exact waits

theorem waitingRequest_capture (frame : unchangedBut ps s x) (apart : ps.contains .capCredit = false := by decide) :
    x.waitingRequest .capture = s.waitingRequest .capture := by
  have same : x.sched.credit = s.sched.credit := frame.get .capCredit apart
  simp only [State.waitingRequest, same]

theorem requestingContext_of_unchanged (frame : unchangedBut ps s x) (apart : ps.contains .contexts = false := by decide) :
    x.requestingContext = s.requestingContext := by
  have same := frame.get .contexts apart
  simp only [Part.same, Prod.mk.injEq] at same
  simp only [State.requestingContext, same.1, same.2]

theorem waitingRequest_sequencer (frame : unchangedBut ps s x) (apart : ps.contains .contexts = false := by decide) :
    x.waitingRequest .sequencer = s.waitingRequest .sequencer := by
  simp only [State.waitingRequest, requestingContext_of_unchanged frame apart]

theorem waitingRequest_buffer (frame : unchangedBut ps s x) (part : ps.contains .partState = false := by decide)
    (apart : ps.contains .cache = false := by decide) : x.waitingRequest .buffer = s.waitingRequest .buffer := by
  have same : x.link.part = s.link.part := frame.get .partState part
  have cache : x.bufs = s.bufs := frame.get .cache apart
  simp only [State.waitingRequest, same, cache]

theorem waitingRequest_engine (frame : unchangedBut ps s x) (apart : ps.contains .engine = false := by decide) :
    x.waitingRequest .engine = s.waitingRequest .engine := by
  have same : x.engine = s.engine := frame.get .engine apart
  simp only [State.waitingRequest, same]

end Requests

end Sys2Proof.Machine
end

section
/-! SUPPORT for O24. A pass of grants over several waiting requests (R165). -/

set_option Elab.async false

namespace Sys2Proof.Machine

open Sys2Proof

/-! ## What a request looks at, and what its grant changes -/

/-- The pieces that a requester's waiting request shows in; `draining` says that the part is in DRAINING. -/
def requestReads (draining : Bool) : Requester → List Part
  | .capture => [.capCredit, .partState, .flushMark]
  | .sequencer => [.contexts, .partState]
  | .buffer => if draining then [.partState, .cache] else [.partState]
  | .engine => [.engine]

/-- The pieces that a requester's grant changes. -/
def grantSets (draining : Bool) : Requester → List Part
  | .capture => [.capCredit, .capRing]
  | .sequencer => if draining then [.contexts] else assignParts
  | .buffer => if draining then .cache :: postParts else []
  | .engine => [.engine, .ctlRing]

/-- What O24 asks of the state for a requester's grant. -/
def GrantReady (s : State) : Requester → Prop
  | .capture => s.sched.credit = .asked → s.captureMayFetch = true
  | .sequencer => ∀ c n, s.requestingContext = some (c, n) → ∃ f, s.ctx c = some f ∧ f.creditHeld = false ∧ n = f.slots ∧
      (s.link.part = .draining → f.phase ≠ .reserving)
  | .buffer => True
  | .engine => s.engine.credit = .asked → s.engine.mode = .waitCredit

section Single

variable {s x y : State} {ps : List Part} {draining : Bool} {r : Requester} {n : Nat}

theorem waitingRequest_of_unchanged (frame : unchangedBut ps s x) (part : draining = decide (s.link.part = .draining))
    (apart : ((requestReads draining r).all fun p => !ps.contains p) = true) : x.waitingRequest r = s.waitingRequest r := by
  cases r with
  | capture =>
    simp only [requestReads, List.all_cons, Bool.and_eq_true, Bool.not_eq_true'] at apart
    exact waitingRequest_capture frame apart.1
  | sequencer =>
    simp only [requestReads, List.all_cons, Bool.and_eq_true, Bool.not_eq_true'] at apart
    exact waitingRequest_sequencer frame apart.1
  | buffer =>
    cases draining with
    | true =>
      simp only [requestReads, if_true, List.all_cons, List.all_nil, Bool.and_true, Bool.and_eq_true, Bool.not_eq_true'] at apart
      exact waitingRequest_buffer frame apart.1 apart.2
    | false =>
      simp only [requestReads, Bool.false_eq_true, if_false, List.all_cons, List.all_nil, Bool.and_true, Bool.not_eq_true'] at apart
      have same : x.link.part = s.link.part := frame.get .partState apart
      have running : s.link.part ≠ .draining := by simpa using part.symm
      simp only [State.waitingRequest, same, running, false_and, if_false]
  | engine =>
    simp only [requestReads, List.all_cons, List.all_nil, Bool.and_true, Bool.not_eq_true'] at apart
    exact waitingRequest_engine frame apart

theorem GrantReady.of_unchanged (h : GrantReady s r) (frame : unchangedBut ps s x)
    (apart : ((requestReads draining r).all fun p => !ps.contains p) = true) : GrantReady x r := by
  cases r with
  | capture =>
    simp only [requestReads, List.all_cons, List.all_nil, Bool.and_true, Bool.and_eq_true, Bool.not_eq_true'] at apart
    obtain ⟨credit, part, mark⟩ := apart
    unfold GrantReady State.captureMayFetch
    rw [show x.sched.credit = s.sched.credit from frame.get .capCredit credit,
      show x.link.part = s.link.part from frame.get .partState part,
      show x.sched.flushMark = s.sched.flushMark from frame.get .flushMark mark]
    exact h
  | sequencer =>
    simp only [requestReads, List.all_cons, List.all_nil, Bool.and_true, Bool.and_eq_true, Bool.not_eq_true'] at apart
    obtain ⟨contexts, part⟩ := apart
    intro c n asked
    rw [requestingContext_of_unchanged frame contexts] at asked
    rw [ctx_of_contexts frame c contexts, show x.link.part = s.link.part from frame.get .partState part]
    exact h c n asked
  | buffer => trivial
  | engine =>
    simp only [requestReads, List.all_cons, List.all_nil, Bool.and_true, Bool.not_eq_true'] at apart
    unfold GrantReady
    rw [show x.engine = s.engine from frame.get .engine apart]
    exact h

/-- A grant stays one under what leaves its pieces. -/
theorem Granted.followed (h : Granted s x r) (frame : unchangedBut ps x y) (part : draining = decide (s.link.part = .draining))
    (asked : s.waitingRequest r = some n) (apart : ((requestReads draining r).all fun p => !ps.contains p) = true) :
    Granted s y r := by
  cases r with
  | capture =>
    simp only [requestReads, List.all_cons, Bool.and_eq_true, Bool.not_eq_true'] at apart
    exact (frame.get .capCredit apart.1).trans h
  | sequencer =>
    simp only [requestReads, List.all_cons, Bool.and_eq_true, Bool.not_eq_true'] at apart
    intro c n asked
    rw [ctx_of_contexts frame c apart.1]
    exact h c n asked
  | buffer =>
    have drains : s.link.part = .draining := by
      by_contra other_
      simp [State.waitingRequest, other_] at asked
    rw [part] at apart
    simp only [requestReads, drains, decide_true, if_true, List.all_cons, List.all_nil, Bool.and_true, Bool.and_eq_true,
      Bool.not_eq_true'] at apart
    exact (congrArg BufferUnit.cache (frame.get .cache apart.2)).trans h
  | engine =>
    simp only [requestReads, List.all_cons, List.all_nil, Bool.and_true, Bool.not_eq_true'] at apart
    exact (congrArg Engine.credit (frame.get .engine apart)).trans h

/-- A grant in a state that shows the request as another did. -/
theorem Granted.preceded (frame : unchangedBut ps s x) (h : Granted x y r) (part : draining = decide (s.link.part = .draining))
    (asked : s.waitingRequest r = some n) (apart : ((requestReads draining r).all fun p => !ps.contains p) = true) :
    Granted s y r := by
  cases r with
  | capture => exact h
  | sequencer =>
    simp only [requestReads, List.all_cons, Bool.and_eq_true, Bool.not_eq_true'] at apart
    exact fun c n asked => h c n ((requestingContext_of_unchanged frame apart.1).trans asked)
  | buffer =>
    have drains : s.link.part = .draining := by
      by_contra other_
      simp [State.waitingRequest, other_] at asked
    rw [part] at apart
    simp only [requestReads, drains, decide_true, if_true, List.all_cons, List.all_nil, Bool.and_true, Bool.and_eq_true,
      Bool.not_eq_true'] at apart
    exact Eq.trans h (congrArg (fun b => b.cache.tail) (frame.get .cache apart.2))
  | engine => exact h

/-- A requester's grant (R165). -/
theorem grant_granted (ready : GrantReady x r) (part : draining = decide (x.link.part = .draining))
    (asked : x.waitingRequest r = some n) (covered : n ≤ x.freeCredit) :
    Granted x (x.grant r) r ∧ unchangedBut (grantSets draining r) x (x.grant r) ∧ (x.grant r).freeCredit + n = x.freeCredit ∧
      (x.grant r).sensor.replayWaits = x.sensor.replayWaits ∧ (x.grant r).engine.job = x.engine.job := by
  cases r with
  | capture =>
    obtain ⟨credit, rfl⟩ : x.sched.credit = .asked ∧ 1 = n := by simpa [State.waitingRequest] using asked
    have frame := grant_capture_frame x
    refine ⟨?_, frame, freeCredit_reserved frame (grant_capture_reserved credit (ready credit)) covered,
      congrArg SensorLink.replayWaits (sensor_of_unchanged frame), congrArg Engine.job (frame.get .engine)⟩
    rw [grant_capture (ready credit)]
    rfl
  | sequencer =>
    obtain ⟨⟨c, m⟩, context, rfl⟩ := Option.map_eq_some_iff.mp asked
    obtain ⟨f, ctx, unheld, rfl, closing⟩ := ready c m context
    have grants : x.grant .sequencer = x.grantFrame c := by
      unfold State.grant
      rw [context]
    have whole := grantFrame_credit_frame ctx unheld
    have frame : unchangedBut (grantSets draining .sequencer) x (x.grantFrame c) := by
      cases draining with
      | true =>
        have drains : x.link.part = .draining := by simpa using part.symm
        rw [grantFrame_credits ctx unheld, if_neg (closing drains)]
        exact setCtx_frame _ _ _
      | false => exact whole
    rw [grants]
    refine ⟨fun d k is => ?_, frame, freeCredit_reserved whole (grantFrame_reserved ctx unheld) covered, ?_,
      congrArg Engine.job (whole.get .engine)⟩
    · obtain ⟨rfl, rfl⟩ := Prod.mk.inj (Option.some.inj (context.symm.trans is))
      exact grantFrame_creditHeld ctx unheld
    · rw [grantFrame_credits ctx unheld]
      split
      · rw [assignBuffers_eq (setCtx_ctx_same _ _ _), sensor_of_unchanged (bufferTest_frame _), buffersTried_replayWaits, setCtx_sensor]
      · rw [setCtx_sensor]
  | buffer =>
    obtain ⟨⟨drains, some_⟩, rfl⟩ : (x.link.part = .draining ∧ x.bufs.cache ≠ []) ∧ 1 = n := by
      simpa [State.waitingRequest] using asked
    obtain ⟨e, rest, cache⟩ := List.exists_cons_of_ne_nil some_
    have frame := entryReturned_frame e.drainReason e rest x
    rw [grant_buffer drains cache]
    refine ⟨?_, ?_, entryReturned_freeCredit _ _ _ covered, congrArg SensorLink.replayWaits (sensor_of_unchanged frame),
      congrArg Engine.job (frame.get .engine)⟩
    · exact (entryReturned_cache _ _ _ _).trans (by rw [cache, List.tail_cons])
    · rw [part, grantSets, if_pos (by simpa using drains)]
      exact frame
  | engine =>
    obtain ⟨credit, rfl⟩ : x.engine.credit = .asked ∧ 1 = n := by simpa [State.waitingRequest] using asked
    have frame := grant_engine_frame x
    refine ⟨?_, frame, freeCredit_reserved frame (grant_engine_reserved credit (ready credit)) covered,
      congrArg SensorLink.replayWaits (sensor_of_unchanged frame), ?_⟩
    · rw [grant_engine (ready credit)]
      rfl
    · rw [grant_engine (ready credit)]

end Single

/-! ## A pass over several requests -/

/-- The slots for which these requesters ask. -/
def State.askedBy (s : State) (done : List Requester) : Nat := (done.map fun q => (s.waitingRequest q).getD 0).sum

/-- The pass has granted these requesters' requests, and no other. -/
structure Passed (s : State) (done : List Requester) (x : State) : Prop where
  frame : unchangedBut (done.flatMap (grantSets (decide (s.link.part = .draining)))) s x
  credit : x.freeCredit + s.askedBy done = s.freeCredit
  granted : ∀ r ∈ done, ∀ n, s.waitingRequest r = some n → Granted s x r
  replay : x.sensor.replayWaits = s.sensor.replayWaits
  job : x.engine.job = s.engine.job

theorem Passed.start (s : State) : Passed s [] s :=
  ⟨.refl _ _, by simp [State.askedBy], fun _ h => absurd h List.not_mem_nil, rfl, rfl⟩

/-- The next requester of the pass is granted, or stops it (R165). -/
theorem Passed.step {s x : State} {done : List Requester} {r : Requester} (h : Passed s done x) (ready : GrantReady s r)
    (before : ∀ d, ((requestReads d r).all fun p => !(done.flatMap (grantSets d)).contains p) = true)
    (behind : ∀ d, (done.all fun q => (requestReads d q).all fun p => !(grantSets d r).contains p) = true)
    (part : ∀ d, (done.flatMap (grantSets d)).contains .partState = false) (rest : List Requester) :
    (grantPass (r :: rest) x = x ∧ s.freeCredit < s.askedBy (done ++ [r])) ∨
      ∃ y, grantPass (r :: rest) x = grantPass rest y ∧ Passed s (done ++ [r]) y := by
  obtain ⟨frame, credit, granted, replay, job⟩ := h
  have same := waitingRequest_of_unchanged (r := r) frame rfl (before _)
  have sum : s.askedBy (done ++ [r]) = s.askedBy done + (s.waitingRequest r).getD 0 := by simp [State.askedBy]
  have within : unchangedBut ((done ++ [r]).flatMap (grantSets (decide (s.link.part = .draining)))) s x :=
    frame.mono fun p hp => by
      rw [List.flatMap_append]
      exact List.mem_append_left _ hp
  rw [grantPass]
  cases asked : s.waitingRequest r with
  | none =>
    rw [same, asked]
    refine .inr ⟨x, rfl, within, by rw [sum, asked]; exact credit, fun q hq n waits => ?_, replay, job⟩
    obtain hq | hq := List.mem_append.mp hq
    · exact granted q hq n waits
    · rw [List.mem_singleton.mp hq, asked] at waits
      cases waits
  | some n =>
    rw [same, asked]
    by_cases covered : n ≤ x.freeCredit
    · have samePart : x.link.part = s.link.part := frame.get .partState (part _)
      obtain ⟨own, sets, taken, replay', job'⟩ := grant_granted (draining := decide (s.link.part = .draining))
        (ready.of_unchanged frame (before _)) (by rw [samePart]) (same.trans asked) covered
      refine .inr ⟨x.grant r, by simp only [covered, if_true], within.trans (sets.mono fun p hp => ?_), ?_, fun q hq m waits => ?_,
        replay'.trans replay, job'.trans job⟩
      · rw [List.flatMap_append]
        exact List.mem_append_right _ (by simpa using hp)
      · rw [sum, asked, Option.getD_some]
        omega
      · obtain hq | hq := List.mem_append.mp hq
        · exact (granted q hq m waits).followed sets rfl waits (List.all_eq_true.mp (behind _) q hq)
        · obtain rfl := List.mem_singleton.mp hq
          exact own.preceded frame rfl waits (before _)
    · refine .inl ⟨by simp only [covered, if_false], ?_⟩
      rw [sum, asked, Option.getD_some]
      omega

/-- The requests that a pass grants are those that free credit covers together with the ones before them. -/
theorem grantPass_passed {s : State} (ready : ∀ r, GrantReady s r) :
    ∃ done, Passed s done (grantPass grantOrder s) ∧
      done ∈ [[], [.capture], [.capture, .sequencer], [.capture, .sequencer, .buffer], grantOrder] ∧
      ∀ r n, s.waitingRequest r = some n → (r ∈ done ↔ s.askedUpTo r ≤ s.freeCredit) := by
  unfold grantOrder
  have first := (Passed.start s).step (ready .capture) (by decide) (by decide) (by decide) [.sequencer, .buffer, .engine]
  obtain ⟨stops, short⟩ | ⟨x, is, p1⟩ := first
  · refine ⟨[], stops.symm ▸ .start s, by simp, fun r n asked => ?_⟩
    cases r <;> simp [State.askedBy, State.askedUpTo, Requester.upTo] at short ⊢ <;> omega
  rw [is]
  have second := p1.step (ready .sequencer) (by decide) (by decide) (by decide) [.buffer, .engine]
  have c1 := p1.credit
  obtain ⟨stops, short⟩ | ⟨x, is, p2⟩ := second
  · refine ⟨[.capture], stops.symm ▸ p1, by simp, fun r n asked => ?_⟩
    cases r <;> simp [State.askedBy, State.askedUpTo, Requester.upTo] at short c1 ⊢ <;> omega
  rw [is]
  have third := p2.step (ready .buffer) (by decide) (by decide) (by decide) [.engine]
  have c2 := p2.credit
  obtain ⟨stops, short⟩ | ⟨x, is, p3⟩ := third
  · refine ⟨[.capture, .sequencer], stops.symm ▸ p2, by simp, fun r n asked => ?_⟩
    cases r <;> simp [State.askedBy, State.askedUpTo, Requester.upTo] at short c2 ⊢ <;> omega
  rw [is]
  have fourth := p3.step (ready .engine) (by decide) (by decide) (by decide) []
  have c3 := p3.credit
  obtain ⟨stops, short⟩ | ⟨x, is, p4⟩ := fourth
  · refine ⟨[.capture, .sequencer, .buffer], stops.symm ▸ p3, by simp, fun r n asked => ?_⟩
    cases r <;> simp [State.askedBy, State.askedUpTo, Requester.upTo] at short c3 ⊢ <;> omega
  rw [is]
  have c4 := p4.credit
  refine ⟨[.capture, .sequencer, .buffer, .engine], p4, by simp, fun r n asked => ?_⟩
  cases r <;> simp [State.askedBy, State.askedUpTo, Requester.upTo] at c4 ⊢ <;> omega

end Sys2Proof.Machine
end

section
/-! PROOFS of O24: a credit grant to each requester, and the order among several. -/

set_option Elab.async false

namespace Sys2Proof.Machine

open Sys2Proof

/-! ## A grant that free credit does not cover -/

theorem grantPass_uncovered {s : State} {r : Requester} {n : Nat} (short : s.freeCredit < n) (l : List Requester)
    (first : (l.findSome? fun q => (s.waitingRequest q).map fun m => (q, m)) = some (r, n)) : grantPass l s = s := by
  induction l with
  | nil => cases first
  | cons q rest ih =>
    rw [grantPass]
    rw [List.findSome?_cons] at first
    cases asked : s.waitingRequest q with
    | none =>
      rw [asked] at first
      exact ih first
    | some m =>
      rw [asked] at first
      obtain ⟨-, rfl⟩ := Prod.mk.inj (Option.some.inj first)
      exact if_neg (by omega)

/-! ## Several waiting requests -/

section Several

variable {s x : State} {done : List Requester}

/-- The prefixes of the grant order (Table 66). -/
def grantPrefixes : List (List Requester) :=
  [[], [.capture], [.capture, .sequencer], [.capture, .sequencer, .buffer], grantOrder]

theorem Passed.quiet (h : Passed s done x) (prefix_ : done ∈ grantPrefixes) (quiet : s.portQuiet) :
    x.noFlushRecord ∧ (x.sensor.port ≠ none ∨ x.sensor.replayWaits = false) := by
  obtain ⟨quiet, record⟩ := quiet
  have apart : ∀ d, (done.flatMap (grantSets d)).contains .port = false := by
    clear h
    revert prefix_
    revert done
    decide
  have port : x.sensor.port = s.sensor.port := h.frame.get .port (apart _)
  refine ⟨?_, by rw [port, h.replay]; exact quiet.imp_right fun h => h.1⟩
  unfold State.noFlushRecord
  rw [h.job]
  exact record

theorem Passed.granted_followed (h : Passed s done x) (prefix_ : done ∈ grantPrefixes) (quiet : s.portQuiet) {r : Requester} {n : Nat}
    (asked : s.waitingRequest r = some n) (in_ : r ∈ done) : Granted s x.follow r := by
  obtain ⟨record, replay⟩ := h.quiet prefix_ quiet
  have granted := h.granted r in_ n asked
  have followed := follow_noRecord record replay
  cases r with
  | capture => exact granted.followed followed rfl asked rfl
  | sequencer =>
    intro c m context
    rw [(follow_creditKept record replay).creditHeld]
    exact granted c m context
  | buffer =>
    exact granted.followed (draining := decide (s.link.part = .draining)) followed rfl asked
      (by cases decide (s.link.part = .draining) <;> decide)
  | engine => exact granted.followed followed rfl asked rfl

theorem Passed.notGranted_followed (h : Passed s done x) (prefix_ : done ∈ grantPrefixes) (quiet : s.portQuiet) {r : Requester}
    {n : Nat} (asked : s.waitingRequest r = some n) (out : r ∉ done) : NotGranted s x.follow r := by
  obtain ⟨record, replay⟩ := h.quiet prefix_ quiet
  have followed := follow_noRecord record replay
  have frame := h.frame
  cases r with
  | capture =>
    have apart : ∀ d, (done.flatMap (grantSets d)).contains .capCredit = false := by
      revert out prefix_; clear h record replay followed frame; revert done; decide
    exact (followed.get .capCredit).trans (frame.get .capCredit (apart _))
  | sequencer =>
    intro c m context
    have apart : ∀ d, ([Part.contexts, .port, .waits].all fun p => !(done.flatMap (grantSets d)).contains p) = true := by
      revert out prefix_; clear h record replay followed frame; revert done; decide
    have apart := apart (decide (s.link.part = .draining))
    simp only [List.all_cons, List.all_nil, Bool.and_true, Bool.and_eq_true, Bool.not_eq_true'] at apart
    obtain ⟨contexts, port, waits⟩ := apart
    rw [follow_quiet x ⟨quietPort_of_unchanged quiet.1 frame port waits, record⟩, tidyInterval_ctx]
    exact ctx_of_contexts frame c contexts
  | buffer =>
    have drains : s.link.part = .draining := by
      by_contra other_
      simp [State.waitingRequest, other_] at asked
    have apart : (done.flatMap (grantSets true)).contains .cache = false := by
      revert out prefix_; clear h record replay followed frame; revert done; decide
    rw [show decide (s.link.part = .draining) = true from decide_eq_true drains] at frame
    exact congrArg BufferUnit.cache ((followed.get .cache).trans (frame.get .cache apart))
  | engine =>
    have apart : ∀ d, (done.flatMap (grantSets d)).contains .engine = false := by
      revert out prefix_; clear h record replay followed frame; revert done; decide
    exact (followed.get .engine).trans (frame.get .engine (apart _))

/-- What O24 asks of the frames makes the Exposure Sequencer's request one for a frame credit (R165). -/
theorem grantReady_sequencer (apart : s.framesApart)
    (unheld : ∀ c n, s.requestingContext = some (c, n) → (s.ctx c).any Frame.creditHeld = false)
    (drains : s.link.part = .draining → s.inPhase .c0 .reserving = false ∧ s.inPhase .c1 .reserving = false) :
    GrantReady s .sequencer := by
  intro c n context
  have asked := frameRequest_of_requestingContext context
  have unheld := unheld c n context
  obtain ⟨-, -, -, -, -, -, -, returns⟩ := apart
  have returns := returns c
  cases ctx : s.ctx c with
  | none =>
    rw [ctx] at asked
    cases asked
  | some f =>
    rw [ctx] at asked unheld returns
    rw [Option.any_some] at unheld
    have unasked : f.returnAsked = false := by
      cases is : f.returnAsked with
      | false => rfl
      | true => simp [is, unheld] at returns
    refine ⟨f, rfl, unheld, ?_, fun draining reserving => ?_⟩
    · simp only [frameRequest, unheld, unasked] at asked
      split at asked
      · exact (Option.some.inj asked).symm
      · cases asked
    · obtain ⟨c0, c1⟩ := drains draining
      have phase : s.inPhase c .reserving = false := by cases c <;> assumption
      rw [inPhase_of_ctx ctx, decide_eq_false_iff_not] at phase
      exact phase reserving

end Several

/-! ## A request that waits alone -/

section Alone

variable {s : State} {r : Requester} {n : Nat}

theorem grantFrame_cache_nil (c : CtxId) (empty : s.bufs.cache = []) : (s.grantFrame c).bufs.cache = [] := by
  have assigned : ∀ {w : State}, w.bufs.cache = [] → (w.assignBuffers c).bufs.cache = [] := fun {w} empty => by
    cases ctx : w.ctx c with
    | none =>
      unfold State.assignBuffers
      rw [ctx]
      exact empty
    | some f => rw [assignBuffers_cache ctx, empty, serve_nil]
  have updated : ∀ (w : State) (g : Frame → Frame), (w.updCtx c g).bufs.cache = w.bufs.cache := fun w g =>
    congrArg BufferUnit.cache ((updCtx_frame c g w).get .cache)
  unfold State.grantFrame
  split
  · exact empty
  · split
    · refine assigned ?_
      unfold State.returnFront
      rw [updated, empty]
      exact (updated _ _).trans empty
    · dsimp only
      split
      · exact assigned ((updated _ _).trans ((updated _ _).trans empty))
      · exact (updated _ _).trans empty

theorem grant_others (alone : ∀ q, q ≠ r → s.waitingRequest q = none) (q : Requester) (other_ : q ≠ r) :
    (s.grant r).waitingRequest q = none := by
  have none_ := alone q other_
  cases r with
  | capture =>
    have frame := grant_capture_frame s
    cases q with
    | capture => exact absurd rfl other_
    | sequencer => exact (waitingRequest_sequencer frame).trans none_
    | buffer => exact (waitingRequest_buffer frame).trans none_
    | engine => exact (waitingRequest_engine frame).trans none_
  | engine =>
    have frame := grant_engine_frame s
    cases q with
    | capture => exact (waitingRequest_capture frame).trans none_
    | sequencer => exact (waitingRequest_sequencer frame).trans none_
    | buffer => exact (waitingRequest_buffer frame).trans none_
    | engine => exact absurd rfl other_
  | buffer =>
    have frame := returnFront_frame CacheEntry.drainReason s
    cases q with
    | capture => exact (waitingRequest_capture frame).trans none_
    | sequencer => exact (waitingRequest_sequencer frame).trans none_
    | buffer => exact absurd rfl other_
    | engine => exact (waitingRequest_engine frame).trans none_
  | sequencer =>
    unfold State.grant
    dsimp only
    split
    · exact none_
    · rename_i c m context
      have frame := grantFrame_frame c s
      cases q with
      | capture => exact (waitingRequest_capture frame).trans none_
      | sequencer => exact absurd rfl other_
      | engine => exact (waitingRequest_engine frame).trans none_
      | buffer =>
        have same : (s.grantFrame c).link.part = s.link.part := frame.get .partState
        have empty : s.link.part = .draining → (s.grantFrame c).bufs.cache = [] := fun draining =>
          grantFrame_cache_nil c (by simpa [State.waitingRequest, draining] using none_)
        simp only [State.waitingRequest, same]
        exact if_neg fun ⟨draining, some_⟩ => some_ (empty draining)

theorem grantPass_alone (asked : s.waitingRequest r = some n) (covered : n ≤ s.freeCredit)
    (alone : ∀ q, q ≠ r → s.waitingRequest q = none) : grantPass grantOrder s = s.grant r := by
  have others := grant_others alone
  cases r with
  | capture =>
    simp only [grantOrder, grantPass, asked, covered, if_true, others .sequencer (by decide), others .buffer (by decide),
      others .engine (by decide)]
  | sequencer =>
    simp only [grantOrder, grantPass, alone .capture (by decide), asked, covered, if_true, others .buffer (by decide),
      others .engine (by decide)]
  | buffer =>
    simp only [grantOrder, grantPass, alone .capture (by decide), alone .sequencer (by decide), asked, covered, if_true,
      others .engine (by decide)]
  | engine =>
    simp only [grantOrder, grantPass, alone .capture (by decide), alone .sequencer (by decide), alone .buffer (by decide), asked,
      covered, if_true]

/-- The request is this context's, where the other one has none. -/
theorem grant_sequencer {c : CtxId} (asked : s.waitingRequest .sequencer = some n) (beside : frameRequest (s.ctx (other c)) = none) :
    s.grant .sequencer = s.grantFrame c := by
  obtain ⟨⟨d, m⟩, context, -⟩ := Option.map_eq_some_iff.mp asked
  have asks := frameRequest_of_requestingContext context
  have same : d = c := by
    by_contra differs
    have is : d = other c := by cases c <;> cases d <;> first | rfl | exact absurd rfl differs
    rw [is, beside] at asks
    cases asks
  unfold State.grant
  rw [context]
  exact congrArg (fun d => s.grantFrame d) same

/-- What the Capture Scheduler's slot sets going (R3). -/
theorem captureGranted_alone {u : Setup} (quiet : s.portQuiet) (asked : s.waitingRequest .capture = some n)
    (may : s.captureMayFetch = true) (room : s.sched.queue.length < 4) (held : s.ring.setup = some u) :
    let t := (s.grant .capture).follow
    t.sched.credit = .held ∧ t.reserved = s.reserved + 1 ∧
      t.ring.capRead = (if s.ringWaiting .capture = true ∧ s.ring.capRead = none then
        some (readAt u s.ring.capHead s .capture) else s.ring.capRead) ∧ timedBut [.capCredit, .capRing] s t := by
  have frame := grant_capture_frame s
  have credit : s.sched.credit = .asked := by
    by_contra other_
    simp [State.waitingRequest, other_] at asked
  have followed := tidyInterval_frame (s.grant .capture)
  dsimp only
  rw [follow_quiet (s.grant .capture) (portQuiet_of_unchanged quiet frame), tidyInterval_reserved, tidyInterval_ring]
  refine ⟨(followed.get .capCredit).trans (by rw [grant_capture may]), grant_capture_reserved credit may, ?_, timedBut_tidyInterval frame⟩
  rw [grant_capture may, recordRead_eq u .capture s held]
  simp only [room, true_and]
  rfl

/-- What the Control Engine's slot sets going (R133). -/
theorem engineGranted_alone {u : Setup} (quiet : s.portQuiet) (asked : s.waitingRequest .engine = some n)
    (mode : s.engine.mode = .waitCredit) (held : s.ring.setup = some u) :
    let t := (s.grant .engine).follow
    t.engine = { s.engine with credit := .held } ∧ t.reserved = s.reserved + 1 ∧
      t.ring.ctlRead = (if s.link.part = .running ∧ s.ringWaiting .control = true ∧ s.ring.ctlRead = none then
        some (readAt u s.ring.ctlHead s .control) else s.ring.ctlRead) ∧ timedBut [.engine, .ctlRing] s t := by
  obtain ⟨port, record⟩ := quiet
  have frame := grant_engine_frame s
  have credit : s.engine.credit = .asked := by
    by_contra other_
    simp [State.waitingRequest, other_] at asked
  have record : (s.grant .engine).noFlushRecord := by
    rw [grant_engine mode]
    exact record
  dsimp only
  rw [follow_quiet (s.grant .engine) ⟨quietPort_of_unchanged port frame, record⟩, tidyInterval_reserved, tidyInterval_ring,
    tidyInterval_engine]
  refine ⟨by rw [grant_engine mode], grant_engine_reserved credit mode, ?_, timedBut_tidyInterval frame⟩
  rw [grant_engine mode, recordRead_eq u .control s held]
  simp only [and_assoc]
  rfl

/-- What a drain's return comes to (R106). -/
theorem bufferGranted_alone {u : Setup} {e : CacheEntry} {rest : List CacheEntry} (quiet : s.portQuiet)
    (asked : s.waitingRequest .buffer = some n) (held : s.ring.setup = some u) (cache : s.bufs.cache = e :: rest) :
    let t := (s.grant .buffer).follow
    t.bufs.cache = rest ∧ Posts u [] [.bufferReturn e.tag (if e.valid then .unused else .badBuffer)] s t ∧
      timedBut ([.cache] ++ postParts) s t := by
  have drains : s.link.part = .draining := by
    by_contra other_
    simp [State.waitingRequest, other_] at asked
  have frame := entryReturned_frame e.drainReason e rest s
  have tidy := tidyInterval_frame (s.entryReturned e.drainReason e rest)
  dsimp only
  rw [grant_buffer drains cache, follow_quiet _ (portQuiet_of_unchanged quiet frame)]
  exact ⟨(congrArg BufferUnit.cache (tidy.get .cache)).trans (entryReturned_cache _ _ _ _),
    (entryReturned_posts held e.drainReason e rest).followed tidy, timedBut_tidyInterval frame⟩

end Alone

/-! ## A frame that serves its assignments -/

section Serving

variable {s m : State} {c : CtxId} {f g : Frame} {q : CaptureRequest} {ps : List Part}

/-- A context serves its assignments from the cache, and the port's requests follow (R95 to R97, R110). -/
theorem assignBuffers_followed (quiet : m.portQuiet) (ctx : m.ctx c = some g) :
    (m.assignBuffers c).follow.ctx (other c) = m.ctx (other c) ∧
      (m.assignBuffers c).follow.bufs.cache = (serve g.assignments m.bufs.cache).2.1 ∧
      (m.assignBuffers c).follow.reserved = m.reserved ∧
      unchangedBut (.interval :: .cache :: .bufRing :: gapSets) m (m.assignBuffers c).follow ∧
      ∀ q, m.request = some q →
        BuffersTried q c g (serve g.assignments m.bufs.cache) m (m.assignBuffers c).follow ∧
          timedBut (triedParts c (serve g.assignments m.bufs.cache) m ++ [.cache, .bufRing]) m (m.assignBuffers c).follow := by
  obtain ⟨quiet, record⟩ := quiet
  have kept := assignBuffers_creditKept ctx
  rw [assignBuffers_eq ctx] at kept ⊢
  have tried := buffersTried_frame c g (serve g.assignments m.bufs.cache) m
  have tested := bufferTest_frame (m.buffersTried c g (serve g.assignments m.bufs.cache))
  have noRecord := noFlushRecord_of_unchanged (noFlushRecord_of_unchanged record tried) tested
  have replay : (m.buffersTried c g (serve g.assignments m.bufs.cache)).bufferTest.sensor.port ≠ none ∨
      (m.buffersTried c g (serve g.assignments m.bufs.cache)).bufferTest.sensor.replayWaits = false := by
    rw [sensor_of_unchanged tested, buffersTried_replayWaits,
      show (m.buffersTried c g (serve g.assignments m.bufs.cache)).sensor.port = m.sensor.port from tried.get .port]
    exact quiet.imp_right fun h => h.1
  have followed := follow_noRecord noRecord replay
  have all : unchangedBut (.interval :: .cache :: .bufRing :: gapSets) m _ :=
    (tried.widen _).trans ((tested.widen _).trans (followed.widen _))
  refine ⟨buffersTried_follow_other quiet tested noRecord, ?_, ?_, all, fun q request => buffersTried_followed quiet request tested noRecord⟩
  · exact (congrArg BufferUnit.cache ((followed.get .cache).trans (tested.get .cache))).trans (buffersTried_cache _ _ _ _)
  · exact (kept.trans (follow_creditKept noRecord replay)).reserved (all.get .capCredit) (congrArg Engine.credit (all.get .engine))

theorem timedBut_tried {served : List Assignment × List CacheEntry × Served} {t : State} {qs : List Part}
    (frame : unchangedBut ps s m) (sensor : m.sensor = s.sensor) (beside : m.ctx (other c) = s.ctx (other c))
    (timed : timedBut (triedParts c served m ++ [.cache, .bufRing]) m t)
    (within : (ps.all fun p => p == .contexts || qs.contains p) = true := by decide)
    (some_ : ([Part.cache, .bufRing].all fun p => qs.contains p) = true := by decide)
    (interval : ps.contains .interval = false := by decide) : timedBut (qs ++ triedParts c served s) s t := by
  rw [triedParts_congr served sensor beside] at timed
  refine (timed.preceded frame interval).mono fun p hp => ?_
  rw [List.append_assoc] at hp
  obtain hp | hp := List.mem_append.mp hp
  · exact List.mem_append_right _ hp
  · obtain hp | hp := List.mem_append.mp hp
    · exact List.mem_append_left _ (by simpa using List.all_eq_true.mp some_ p hp)
    · have is := List.all_eq_true.mp within p hp
      simp only [Bool.or_eq_true, beq_iff_eq] at is
      obtain rfl | is := is
      · exact List.mem_append_right _ (contexts_mem_triedParts c served s)
      · exact List.mem_append_left _ (by simpa using is)

/-- A frame goes on with its credit (R30, R46, R95 to R97). -/
theorem frameGranted_alone (quiet : s.portQuiet) (ctx : s.ctx c = some f) (unheld : f.creditHeld = false) :
    let t := (s.grantFrame c).follow
    t.reserved = s.reserved + f.slots ∧ t.ctx (other c) = s.ctx (other c) ∧
      (f.phase = .closing → t.ctx c = some { f with creditHeld := true } ∧ timedBut [.contexts] s t) ∧
      ∀ q, f.phase = .reserving → s.request = some q →
        ∀ served, served = serve (f.assignments.map fun a => { a with byteSize := s.windowBytes a.window }) s.bufs.cache →
        BuffersTried q c { f with creditHeld := true } served s t ∧ t.bufs.cache = served.2.1 ∧
          timedBut ([.cache, .bufRing] ++ triedParts c served s) s t := by
  have reserved := grantFrame_reserved ctx unheld
  have credited := grantFrame_credits ctx unheld
  by_cases reserving : f.phase = .reserving
  · rw [if_pos reserving] at credited
    have set_ := setCtx_frame c (some (Frame.measured s { f with creditHeld := true })) s
    have added := setCtx_reserved ctx unheld (g := Frame.measured s { f with creditHeld := true }) rfl
    have request : (s.setCtx c (some (Frame.measured s { f with creditHeld := true }))).request = s.request := by cases c <;> rfl
    have cache : (s.setCtx c (some (Frame.measured s { f with creditHeld := true }))).bufs = s.bufs := set_.get .cache
    obtain ⟨beside, left, kept, -, tried⟩ := assignBuffers_followed (portQuiet_of_unchanged quiet set_)
      (setCtx_ctx_same s c (some (Frame.measured s { f with creditHeld := true })))
    dsimp only
    rw [credited]
    refine ⟨kept.trans added, beside.trans (setCtx_ctx_other _ _ _), fun closing => ?_, fun q _ is served serves => ?_⟩
    · rw [reserving] at closing
      cases closing
    · obtain ⟨taken, timed⟩ := tried q (request.trans is)
      rw [cache] at taken timed left
      have sensor : (s.setCtx c (some (Frame.measured s { f with creditHeld := true }))).sensor = s.sensor := setCtx_sensor ..
      subst serves
      exact ⟨taken.preceded set_ sensor (setCtx_ctx_other _ _ _), left,
        timedBut_tried set_ sensor (setCtx_ctx_other _ _ _) timed⟩
  · rw [if_neg reserving] at credited
    have set_ := setCtx_frame c (some { f with creditHeld := true }) s
    dsimp only
    rw [credited] at reserved ⊢
    rw [follow_quiet _ (portQuiet_of_unchanged quiet set_), tidyInterval_reserved, tidyInterval_ctx, tidyInterval_ctx,
      setCtx_ctx_same, setCtx_ctx_other]
    exact ⟨reserved, rfl, fun _ => ⟨rfl, timedBut_tidyInterval set_⟩, fun q h => absurd h reserving⟩

/-- A frame whose return is granted returns the front entry and serves on (R96). -/
theorem returnGranted_alone {u : Setup} {e : CacheEntry} {rest : List CacheEntry} (quiet : s.portQuiet) (held : s.ring.setup = some u)
    (ctx : s.ctx c = some f) (credit : f.creditHeld = true) (asked : f.returnAsked = true) (cache : s.bufs.cache = e :: rest)
    (request : s.request = some q) :
    let t := (s.grantFrame c).follow
    ∀ served, served = serve f.assignments rest →
      Posts u [] [.bufferReturn e.tag (if e.valid then .short else .badBuffer)] s t ∧
        BuffersTried q c { f with returnAsked := false } served s t ∧ t.ctx (other c) = s.ctx (other c) ∧
        t.bufs.cache = served.2.1 ∧ timedBut ([.cache, .bufRing] ++ postParts ++ triedParts c served s) s t := by
  intro t served serves
  have is : t = (((s.setCtx c (some { f with returnAsked := false })).entryReturned e.refusal e rest).bufferTest.assignBuffers c).follow :=
    congrArg State.follow (grantFrame_returns ctx asked credit cache)
  have set_ := setCtx_frame c (some { f with returnAsked := false }) s
  have returned := entryReturned_frame e.refusal e rest (s.setCtx c (some { f with returnAsked := false }))
  have posts := (entryReturned_posts (s := s.setCtx c (some { f with returnAsked := false })) ((set_.get .setup).trans held)
    e.refusal e rest).preceded set_
  have left := entryReturned_cache e.refusal e rest (s.setCtx c (some { f with returnAsked := false }))
  have carried : ((s.setCtx c (some { f with returnAsked := false })).entryReturned e.refusal e rest).ctx c =
      some { f with returnAsked := false } := (ctx_of_contexts returned c).trans (setCtx_ctx_same _ _ _)
  have beside : ((s.setCtx c (some { f with returnAsked := false })).entryReturned e.refusal e rest).ctx (other c) =
      s.ctx (other c) := (ctx_of_contexts returned _).trans (setCtx_ctx_other _ _ _)
  have before : unchangedBut ([.contexts, .cache] ++ postParts) s _ := (set_.widen _).trans (returned.widen _)
  generalize (s.setCtx c (some { f with returnAsked := false })).entryReturned e.refusal e rest = w at *
  have tested := bufferTest_frame w
  have frame : unchangedBut ([.contexts, .cache, .bufRing] ++ postParts) s w.bufferTest := (before.widen _).trans (tested.widen _)
  have sensor : w.bufferTest.sensor = s.sensor := sensor_of_unchanged frame
  have carried : w.bufferTest.ctx c = some { f with returnAsked := false } := (ctx_of_contexts tested c).trans carried
  have beside : w.bufferTest.ctx (other c) = s.ctx (other c) := (ctx_of_contexts tested _).trans beside
  have left : w.bufferTest.bufs.cache = rest := (congrArg BufferUnit.cache (tested.get .cache)).trans left
  obtain ⟨kept, cache', -, all, tried⟩ := assignBuffers_followed (portQuiet_of_unchanged quiet frame) carried
  obtain ⟨taken, timed⟩ := tried q ((congrArg (fun q => q.head?.bind Entry.request) (frame.get .queue)).trans request)
  rw [left] at taken timed cache'
  rw [is]
  subst serves
  exact ⟨(posts.followed tested).followed all, taken.preceded frame sensor beside, kept.trans beside, cache',
    timedBut_tried frame sensor beside timed⟩

end Serving

/-- Settles O24: `grantPass_uncovered`, `grantPass_passed` for several requests, and each requester's grant alone. -/
theorem creditIsGrantedInOrder : Obligations.CreditIsGrantedInOrder := by
  unfold Obligations.CreditIsGrantedInOrder
  refine fun s quiet => ⟨fun r n first short => ?_, fun apart capture engine unheld drains => ?_, fun r n first covered alone => ?_⟩
  · refine ⟨s.follow, ?_, ?_⟩
    · exact congrArg (fun x => Host.Outcome.next (State.follow x)) (grantPass_uncovered short grantOrder first)
    · rw [follow_quiet s quiet]
      exact timedBut_tidyInterval (.refl _ _)
  · have ready : ∀ r, GrantReady s r := fun r => by
      cases r with
      | capture => exact capture
      | sequencer => exact grantReady_sequencer apart unheld drains
      | buffer => trivial
      | engine => exact engine
    obtain ⟨done, passed, prefix_, order⟩ := grantPass_passed ready
    refine ⟨_, rfl, fun r n asked => ⟨fun within => ?_, fun beyond => ?_⟩⟩
    · exact passed.granted_followed prefix_ quiet asked ((order r n asked).mpr within)
    · exact passed.notGranted_followed prefix_ quiet asked fun in_ => absurd ((order r n asked).mp in_) (by omega)
  · have asked := firstRequest_waits first
    refine ⟨(s.grant r).follow, congrArg (fun x => Host.Outcome.next (State.follow x)) (grantPass_alone asked covered alone), ?_, ?_, ?_,
      ?_, ?_⟩
    · rintro rfl may room u held
      exact captureGranted_alone quiet asked may room held
    · rintro rfl mode u held
      exact engineGranted_alone quiet asked mode held
    · rintro rfl u e rest held cache
      exact bufferGranted_alone quiet asked held cache
    · rintro rfl c f ctx beside unheld
      rw [grant_sequencer asked beside]
      exact frameGranted_alone quiet ctx unheld
    · rintro rfl u c f e rest q held ctx reserving credit returns beside cache request served serves
      rw [grant_sequencer asked beside]
      exact returnGranted_alone quiet held ctx credit returns cache request served serves

end Sys2Proof.Machine
end
